-- ==== Sys2Proof/Word.lean ====
section
/-! DEFINITION. The word type of the span and of the slave window, and the number ranges the spec names. -/

namespace Sys2Proof

/-- A word: 32 bits (00 section 0.6, "Words and addresses"). -/
abbrev Word := BitVec 32

/-- A station number, 0 to 11 (00 section 0.6, "Station numbers"). Addition wraps modulo 12, as the searches of 02 section 2.1 do. -/
abbrev Station := Fin 12

/-- The number of a fetch slot, 0 to 7 (R76). -/
abbrev SlotNo := Fin 8

/-- A signal number, 0 to 15 (R116). -/
abbrev SignalNo := Fin 16

/-- A set of station numbers, one bit each, as the class map of TABLE 11-1 and the implicated set of TABLE 11-3 carry it. -/
abbrev StationSet := BitVec 12

end Sys2Proof
end

