-- ==== Sys2Proof/Syntax.lean ====
section
/-! DEFINITION. The commands of the station: one constructor for each row of spec/opcode_table.json, with what the environment
brings with it. -/

namespace Sys2Proof

/-- What the parcel window held on the line (R8): nothing, a garbled transmission, or one intact parcel with its two header words
and its body words in the order sent (11 section 11.1, TABLE 11-1). -/
inductive LineReport where
  | empty
  | garbled
  | intact (header0 header1 : Word) (body : List Word)
  deriving DecidableEq, Repr

/-- What the answer window held on the line (R13): nothing, a garbled answer, or a three-bit code (TABLE 11-5). -/
inductive AnswerReport where
  | empty
  | garbled
  | code (c : BitVec 3)
  deriving DecidableEq, Repr

/-- How an access to node memory ended (06 section 6.1). -/
inductive AccessEnd where
  | ok
  | error
  deriving DecidableEq, Repr

/-- How a read access ended. On OK node memory hands over the words read; word `i` is from the access's address plus `4 * i`, and
the words beyond the access's length are not used (R101, log 10). -/
inductive ReadEnd where
  | ok (words : Vector Word 16)
  | error
  deriving DecidableEq, Repr

/-- The commands: the rows of spec/opcode_table.json, in the table's order. -/
inductive Instr where
  /-- HARDWARE_RESET_ASSERT: the reset pin is asserted (R151). -/
  | hardwareResetAssert
  /-- HARDWARE_RESET_RELEASE: the reset pin is released, with the level of the four strap pins (R151, R152). -/
  | hardwareResetRelease (straps : BitVec 4)
  /-- ROUND_MARK: a round mark on the line (R3). -/
  | roundMark
  /-- CALL_CLOSE: call close, with the call marks seen on the line; bit `n` is station `n` (R6). -/
  | callClose (picture : StationSet)
  /-- PARCEL_WINDOW: the parcel window opens (R7). -/
  | parcelWindow
  /-- PARCEL_OUTCOME: the parcel window ends, with what it held (R8). -/
  | parcelOutcome (report : LineReport)
  /-- ANSWER_WINDOW: the answer window opens (R12). -/
  | answerWindow
  /-- ANSWER_CLOSE: the answer window ends, with what it held (R13). -/
  | answerClose (report : AnswerReport)
  /-- RETRY_TIMER_EXPIRY: the retry timer of one reach entry expires (R66). -/
  | retryTimerExpiry (d : Station)
  /-- FETCH_TIMER_EXPIRY: the fetch timer of one slot expires (R85). -/
  | fetchTimerExpiry (t : SlotNo)
  /-- APPLY_WRITE_END: the apply engine's write access ends (R100). -/
  | applyWriteEnd (ending : AccessEnd)
  /-- APPLY_READ_END: the apply engine's read access ends (R101). -/
  | applyReadEnd (ending : ReadEnd)
  /-- LANDING_END: the landing access ends (R84). -/
  | landingEnd (ending : AccessEnd)
  /-- ABANDONED_ACCESS_END: an abandoned access ends (R114). -/
  | abandonedAccessEnd (ending : AccessEnd)
  /-- POST: the composed request is submitted as a POST (R167, R170). -/
  | post
  /-- FETCH: the composed request is submitted as a FETCH (R167, R170). -/
  | fetch
  /-- SIGNAL: the composed request is submitted as a SIGNAL (R167, R170). -/
  | signal
  /-- UNDEFINED_KIND: the composed request is submitted with a kind code that names no request (R169). -/
  | undefinedKind
  /-- START: the composed request is submitted as a START (R154). -/
  | start
  /-- RESTART: the composed request is submitted as a RESTART (R163). -/
  | restart
  /-- SET_MASK: the composed request is submitted as a SET_MASK (R121). -/
  | setMask
  /-- ACK_SIGNAL: the composed request is submitted as an ACK_SIGNAL (R122). -/
  | ackSignal
  /-- READ_FAULT: the composed request is submitted as a READ_FAULT (R146). -/
  | readFault
  /-- CLEAR_FAULTS: the composed request is submitted as a CLEAR_FAULTS (R147). -/
  | clearFaults
  /-- READ_REACH: the composed request is submitted as a READ_REACH (R74). -/
  | readReach
  /-- TAKE: the node reads the TAKE word (R179). -/
  | take
  /-- REGISTER_WRITE: the node writes the window word at a byte offset (R166, TABLE 11-6). -/
  | registerWrite (offset : BitVec 8) (value : Word)
  deriving DecidableEq, Repr

end Sys2Proof
end

