-- ==== Sys2Proof/Config.lean ====
section
/-! DEFINITION. What every NJ-412 station fixes: the capacities and limits the rules name, and the one value the spec leaves open. -/

namespace Sys2Proof.Config

/-- The send queue never holds more entries (R38). -/
def sendCapacity : Nat := 32

/-- The inbound queue never holds more entries, provisional entry included (R94). -/
def inboundCapacity : Nat := 16

/-- The free places from which the room flag is set (R7). -/
def roomPlaces : Nat := 4

/-- The return list never holds more RETURNs (R106). -/
def returnCapacity : Nat := 8

/-- The fault log never holds more records (R144). -/
def faultCapacity : Nat := 4

/-- The budget sum never exceeds this (R172). -/
def budgetLimit : Nat := 40

/-- The completion queue never holds more records (R174). -/
def completionCapacity : Nat := 64

/-- The no-replies in a row that make a station UNREACHABLE (R64). -/
def silenceLimit : Nat := 3

/-- The counted rounds of a join watch (R157, R158). -/
def watchLength : Nat := 4

/-- The settle collisions that show a duplicate number (R18). -/
def collisionLimit : Nat := 4

/-- The void-run count at which SPAN_UNSTEADY is handed on (R17). -/
def unsteadyRun : Nat := 8

/-- The value at which the saturating counts hold (R17, R30, R116, R144, R178). -/
def countMax : Nat := 255

/-- The size of the node's address space (00 section 0.6, R96, R170). -/
def addressSpace : Nat := 2 ^ 32

/-- The size of a window page in bytes (R93). -/
def pageBytes : Nat := 4096

/-- FREE VALUE. The `n`-th choice among orders the spec leaves open (R53, R71, R88, R135, R176; R9 for log 3). It has no body:
no proof can rest on an order (logs 2 and 3; DESIGN CHOICE that a choice is a number, safe). -/
opaque choice : Nat → Nat

end Sys2Proof.Config
end

