-- ==== Sys2Proof/Machine/State.lean ====
section
/-! DEFINITION. The state of one station, block by block as FIGURE 0-1 gives it, and its values after hardware reset. -/

namespace Sys2Proof.Machine

/-! ## Station controller -/

/-- The station states (TABLE 9-1, R150). -/
inductive StationState where
  | unstarted
  | listening
  | active
  | contained
  | offline
  deriving DecidableEq, Repr

/-- A station's standing in the grant (TABLE 0-1, "Class"). -/
inductive StationClass where
  | low
  | high
  deriving DecidableEq, Repr

/-- The fault policy (08 section 8.1). -/
inductive Policy where
  | report
  | halt
  deriving DecidableEq, Repr

/-- The configuration taken from an accepted START (R155). -/
structure StationConfig where
  cls : StationClass
  policy : Policy
  patience : Fin 4
  retry : Fin 4
  timeout : Fin 4
  windowBase : Word
  windowPages : BitVec 16
  signalMask : BitVec 16
  deriving DecidableEq, Repr

/-! ## Turn unit -/

/-- The part of a turn record that a stamp carries (02 section 2.1): HP, LP, LO and the class map, whose set bits are the HIGH
stations. Two records agree when these are equal. -/
structure Stamp where
  hp : Station
  lp : Station
  lo : Bool
  high : StationSet
  deriving DecidableEq, Repr

/-- The turn record (TABLE 2-1). -/
structure TurnRecord where
  stamp : Stamp
  settle : Bool
  repair : Nat
  deriving DecidableEq, Repr

/-! ## Parcels, candidates and the span unit -/

/-- How a read for a fetch ended, as a RETURN carries it and a slot holds it (TABLES 5-1 and 6-3). -/
inductive FetchResult where
  | ok (data : List Word)
  | readError
  deriving DecidableEq, Repr

/-- The mode of a CONTAIN (TABLE 8-1). -/
inductive ContainMode where
  | reported
  | halted
  deriving DecidableEq, Repr

/-- The cause of a fault record, of a CONTAIN and of containment (TABLES 8-1 and 8-3). -/
inductive FaultCause where
  | applyFault
  | implicated
  deriving DecidableEq, Repr

/-- The body of a parcel, by kind (TABLE 11-3). The length of a POST is the number of its data words. -/
inductive Body where
  | post (addr : Word) (data : List Word)
  | fetch (addr : Word) (length : Nat) (tag : SlotNo)
  | signal (n : SignalNo)
  | ret (tag : Fin 16) (result : FetchResult)
  | hello (cls : StationClass) (policy : Policy)
  | contain (mode : ContainMode) (cause : FaultCause) (named : StationSet) (addr : Word) (length : Nat)
  deriving DecidableEq, Repr

/-- Which of the transmit selector's sources a candidate came from (R4). -/
inductive Source where
  | contain
  | hello
  | returnList
  | sendQueue
  deriving DecidableEq, Repr

/-- The frozen candidate: its source, its destination field and its whole body (R3, R7). -/
structure Candidate where
  source : Source
  dest : Fin 16
  body : Body
  deriving DecidableEq, Repr

/-- The words of one parcel: two header words and the body words (11 section 11.2). -/
structure ParcelWords where
  header0 : Word
  header1 : Word
  body : List Word
  deriving DecidableEq, Repr

/-- The answer codes (TABLE 1-3). -/
inductive AnswerCode where
  | taken
  | full
  | refused
  | outside
  | stale
  deriving DecidableEq, Repr

/-- The phase of the round in progress (FIGURE 1-1). `closed` follows call close: the call picture, whether this station owns the
round, and the settle flag read at call close (R6, R18). `parcel` is the parcel window: that flag, and the words this station
transmits if it is the owner (R7). `answer` runs from the parcel outcome to answer close: the source and body of the parcel whose
answer code has still to be asked for at this station, if any, and the answer this station drives (R12). -/
inductive Phase where
  | none
  | calling
  | closed (picture : StationSet) (owned : Bool) (settle : Bool)
  | parcel (settle : Bool) (sent : Option ParcelWords)
  | answer (ask : Option (Station × Body)) (driven : Option AnswerCode)
  deriving DecidableEq, Repr

/-- The span unit (TABLE 1-4). -/
structure SpanUnit where
  phase : Phase
  callMark : Bool
  candidate : Option Candidate
  voidRun : Nat
  settleCollision : Nat
  callBar : Bool
  deriving DecidableEq, Repr

/-! ## Send queue -/

/-- What a send-queue entry asks of its destination, with the fields TABLE 3-1 gives its kind. -/
inductive SendOp where
  | post (addr : Word) (data : List Word)
  | fetch (addr : Word) (length : Nat) (landing : Word) (tag : Option SlotNo)
  | signal (n : SignalNo)
  deriving DecidableEq, Repr

/-- A send-queue entry (TABLE 3-1). -/
structure SendEntry where
  op : SendOp
  dest : Station
  cookie : BitVec 16
  report : Bool
  fullCount : Nat
  inFlight : Bool
  deriving DecidableEq, Repr

/-! ## Reach table -/

/-- The reach states (04 section 4.1). -/
inductive ReachState where
  | unknown
  | reachable
  | waiting
  | unreachable
  | contained
  | self
  deriving DecidableEq, Repr

/-- A timer: stopped, or running since it was started for an interval in microseconds. The time left is not kept (log 6). -/
inductive Timer where
  | stopped
  | running (micros : Nat)
  deriving DecidableEq, Repr

/-- A reach entry (TABLE 4-1). -/
structure ReachEntry where
  state : ReachState
  silence : Nat
  timer : Timer
  deriving DecidableEq, Repr

/-! ## Fetch table -/

/-- The states of a fetch slot (R77). -/
inductive SlotState where
  | free
  | awaiting
  | holding
  | landing
  deriving DecidableEq, Repr

/-- A fetch slot (TABLE 5-1). The data buffer is the data of an OK held result. -/
structure FetchSlot where
  state : SlotState
  dest : Station
  landing : Word
  length : Nat
  cookie : BitVec 16
  held : Option FetchResult
  timer : Timer
  deferred : Bool
  deriving DecidableEq, Repr

/-- A FREE slot: it holds no fetch and its other fields have no meaning (R76); the model holds zeros there (log 17). -/
def freeSlot : FetchSlot :=
  { state := .free, dest := 0, landing := 0, length := 0, cookie := 0, held := none, timer := .stopped, deferred := false }

/-! ## Inbound queue, apply engine, return list and node memory path -/

/-- What an inbound entry asks of this station, with the fields TABLE 6-1 gives its kind. -/
inductive InboundOp where
  | post (addr : Word) (data : List Word)
  | fetch (addr : Word) (length : Nat) (tag : SlotNo)
  | signal (n : SignalNo)
  deriving DecidableEq, Repr

/-- An inbound entry (TABLE 6-1). -/
structure InboundEntry where
  op : InboundOp
  source : Station
  provisional : Bool
  deriving DecidableEq, Repr

/-- The apply engine's states (TABLE 6-2). -/
inductive EngineState where
  | idle
  | roomWait
  | pathWait
  | inAccess
  | stopped
  deriving DecidableEq, Repr

/-- A RETURN in the return list (TABLE 6-3, R107). -/
structure ReturnEntry where
  requester : Station
  tag : SlotNo
  result : FetchResult
  inFlight : Bool
  deriving DecidableEq, Repr

/-- An access to node memory: consecutive words from an address (06 section 6.1). -/
inductive Access where
  | write (addr : Word) (data : List Word)
  | read (addr : Word) (length : Nat)
  deriving DecidableEq, Repr

/-- The users of the node memory path (R112); a landing is that of one slot. -/
inductive PathUser where
  | apply
  | landing (t : SlotNo)
  deriving DecidableEq, Repr

/-- The states of the node memory path (R112). -/
inductive PathState where
  | free
  | busy (user : PathUser) (access : Access)
  | abandoned (access : Access)
  deriving DecidableEq, Repr

/-- The last served user (R112). -/
inductive ServedUser where
  | apply
  | landing
  deriving DecidableEq, Repr

/-- The node memory path: its state, the waiting request of the apply engine, the waiting landing requests, oldest first, and the
last served user (R112). -/
structure MemPath where
  state : PathState
  applyWaiting : Option Access
  landingWaiting : List (SlotNo × Access)
  lastServed : ServedUser
  deriving DecidableEq, Repr

/-! ## Signal table -/

/-- The notice states (TABLE 7-1). -/
inductive NoticeState where
  | none
  | unread
  | read
  deriving DecidableEq, Repr

/-- A signal entry (TABLE 7-1). -/
structure SignalEntry where
  pending : Bool
  enabled : Bool
  count : Nat
  first : Option Station
  notice : NoticeState
  deriving DecidableEq, Repr

/-! ## Containment unit and fault log -/

/-- A fault record (TABLE 8-3). -/
structure FaultRecord where
  cause : FaultCause
  peer : Station
  addr : Word
  length : Nat
  halted : Bool
  deriving DecidableEq, Repr

/-- The pending CONTAIN (TABLE 8-1). The implicated set of a HALTED one is not fixed here: it is taken at each freeze (R132, R138), and
`named` is then empty. -/
structure PendingContain where
  mode : ContainMode
  cause : FaultCause
  named : StationSet
  addr : Word
  length : Nat
  deriving DecidableEq, Repr

/-- The containment unit (TABLE 8-1). -/
structure ContainUnit where
  flag : Bool
  cause : Option FaultCause
  pendingContain : Option PendingContain
  late : StationSet
  log : List FaultRecord
  overflow : Nat
  deriving DecidableEq, Repr

/-! ## Completion queue and request window -/

/-- The kinds of queued request (10 section 10.1). -/
inductive RequestKind where
  | post
  | fetch
  | signal
  deriving DecidableEq, Repr

/-- The twelve statuses of a request completion (R175, TABLE 11-11). -/
inductive Status where
  | done
  | fetched
  | fullExhausted
  | outsideWindow
  | cancelled
  | unreachable
  | destContained
  | localContained
  | fetchTimeout
  | readError
  | landError
  | destRestarted
  deriving DecidableEq, Repr

/-- The eight station notice kinds (TABLE 10-3). -/
inductive NoticeKind where
  | localFault
  | peerHalted
  | peerFaulted
  | postLost
  | peerRestarted
  | spanUnsteady
  | returnStale
  | wentOffline
  deriving DecidableEq, Repr

/-- A completion record (TABLE 10-2). -/
inductive Completion where
  | request (cookie : BitVec 16) (kind : RequestKind) (dest : Station) (status : Status)
  | signal (n : SignalNo) (first : Station)
  | station (kind : NoticeKind) (count : Nat) (arg : Nat)
  deriving DecidableEq, Repr

/-- The result codes (R168, TABLE 11-10). -/
inductive Result where
  | none
  | accepted
  | notStarted
  | contained
  | offline
  | badKind
  | badDest
  | badLength
  | badAddress
  | badSignal
  | destUnreachable
  | destContained
  | queueFull
  | budgetExhausted
  | alreadyStarted
  | badStrap
  | badCode
  | badWindow
  | notPending
  | noticeUnread
  | noRecord
  | logHeld
  deriving DecidableEq, Repr

/-- The words behind the slave window (TABLE 10-1). `takeWord` is the model's own: the word that the last read of TAKE returned
(log 11). -/
structure NodePort where
  header : Vector Word 4
  data : Vector Word 16
  result : Result
  resultView : Vector Word 4
  view : Vector Word 4
  takeWord : Word
  deriving DecidableEq, Repr

/-! ## The whole station -/

/-- The state of the station. `choices` and `pending` are the model's own: how many free choices have been made (log 2), and the
commands that wait, first in first out (log 19). -/
structure State where
  held : Bool
  strap : BitVec 4
  station : StationState
  config : Option StationConfig
  joinWatch : Nat
  helloPending : Bool
  span : SpanUnit
  turn : TurnRecord
  sendQueue : List SendEntry
  reach : Vector ReachEntry 12
  slots : Vector FetchSlot 8
  inbound : List InboundEntry
  engine : EngineState
  returns : List ReturnEntry
  path : MemPath
  signals : Vector SignalEntry 16
  contain : ContainUnit
  completions : List Completion
  port : NodePort
  choices : Nat
  pending : List Instr
  deriving DecidableEq, Repr

/-! ## Outcomes -/

/-- The faults of a step: none. The spec gives every command its effect, or says that the event does not arise in a state, and then the
state is unchanged (log 4, safe or unsafe as it says there). -/
inductive Fault where
  deriving DecidableEq, Repr

/-- The refusals of a step. -/
inductive Refusal where
  /-- Raised by exec alone, for a command that has no meaning yet; safe. No command is left so. -/
  | notModelled (mnemonic : String)
  deriving DecidableEq, Repr

/-! ## Values after hardware reset -/

/-- TABLE 1-4. -/
def SpanUnit.reset : SpanUnit :=
  { phase := .none, callMark := false, candidate := none, voidRun := 0, settleCollision := 0, callBar := false }

/-- R23. -/
def TurnRecord.reset : TurnRecord :=
  { stamp := { hp := 11, lp := 11, lo := false, high := 0 }, settle := true, repair := 0 }

/-- R75: the entry of the strap number is SELF, every other entry UNKNOWN. -/
def reachReset (strap : BitVec 4) : Vector ReachEntry 12 :=
  Vector.ofFn fun i =>
    { state := if i.val = strap.toNat then .self else .unknown, silence := 0, timer := .stopped }

/-- R92. -/
def slotsReset : Vector FetchSlot 8 := Vector.replicate 8 freeSlot

/-- TABLE 6-4, with no abandoned access. -/
def MemPath.reset : MemPath :=
  { state := .free, applyWaiting := none, landingWaiting := [], lastServed := .landing }

/-- A signal entry that is not pending, with its enable (R123, R127). -/
def idleSignal (enabled : Bool) : SignalEntry :=
  { pending := false, enabled := enabled, count := 0, first := none, notice := .none }

/-- TABLE 7-3. -/
def signalsReset : Vector SignalEntry 16 := Vector.replicate 16 (idleSignal false)

/-- TABLE 8-4. -/
def ContainUnit.reset : ContainUnit :=
  { flag := false, cause := none, pendingContain := none, late := 0, log := [], overflow := 0 }

/-- TABLE 10-5; `takeWord` is zero (log 11). -/
def NodePort.reset : NodePort :=
  { header := Vector.replicate 4 0, data := Vector.replicate 16 0, result := .none, resultView := Vector.replicate 4 0,
    view := Vector.replicate 4 0, takeWord := 0 }

/-- The station right after the release of hardware reset with the straps at `strap` (R151). -/
def State.resetWith (strap : BitVec 4) : State :=
  { held := false, strap := strap, station := .unstarted, config := none, joinWatch := 0, helloPending := false,
    span := .reset, turn := .reset, sendQueue := [], reach := reachReset strap, slots := slotsReset, inbound := [],
    engine := .idle, returns := [], path := .reset, signals := signalsReset, contain := .reset, completions := [],
    port := .reset, choices := 0, pending := [] }

/-- The station right after hardware reset. The spec gives the strap pins no level of their own: DESIGN CHOICE, 0 (log 1). -/
def State.reset : State := State.resetWith 0

end Sys2Proof.Machine
end

