-- ==== Sys2Proof/Machine/Ops.lean ====
section
/-! DEFINITION. The operations every block shares: bits of words, sets of stations, saturating counts, timing codes, table entries, and
the hand-on of records to the completion queue. -/

namespace Sys2Proof.Machine

/-! ## Bits of words (11 section 11.1) -/

/-- The field of `len` bits of `w` whose least significant bit is bit `lo`. -/
def bits (w : Word) (lo len : Nat) : Nat := w.toNat / 2 ^ lo % 2 ^ len

/-- Whether bit `i` of `w` is set. -/
def bit (w : Word) (i : Nat) : Bool := bits w i 1 == 1

/-- A word from its fields, each a value and the bit it starts at. The unassigned bits are zero: R184 says so of the parcel words a station sends;
of the words of the slave window (RESULT, RESULT VIEW, VIEW, TAKE, STATUS) no rule says what an unassigned bit reads as, and zero is the
model's DESIGN CHOICE (log 23, unsafe). -/
def pack (fields : List (Nat × Nat)) : Word := BitVec.ofNat 32 (fields.map fun f => f.1 * 2 ^ f.2).sum

/-- A one-bit field: 1 for set (11 section 11.1). -/
def bitOf (b : Bool) : Nat := if b then 1 else 0

/-! ## Sets of stations -/

/-- Whether station `n` is in the set. -/
def StationSet.has (set : StationSet) (n : Station) : Bool := set.getLsbD n.val

/-- The set of one station. -/
def StationSet.single (n : Station) : StationSet := 1#12 <<< n.val

/-- The set with station `n` added. -/
def StationSet.add (set : StationSet) (n : Station) : StationSet := set ||| StationSet.single n

/-- The set with the entry of station `n` set or cleared. -/
def StationSet.put (set : StationSet) (n : Station) (b : Bool) : StationSet :=
  if b then set ||| StationSet.single n else set &&& ~~~StationSet.single n

/-- The first member found in a search from position `k`: `k`, `k + 1`, up to `k + 11`, modulo 12 (02 section 2.1). -/
def search (k : Station) (set : StationSet) : Option Station :=
  ((List.finRange 12).map fun i => k + i).find? fun n => StationSet.has set n

/-! ## Counts and timing codes -/

/-- A count raised by 1, unless it holds at its upper bound (00 section 0.6, "Numbers"). -/
def bump (n : Nat) : Nat := if n < Config.countMax then n + 1 else n

/-- The patience limit of a code, in FULL answers (TABLE 3-4). -/
def patienceLimit : Fin 4 → Nat
  | 0 => 4
  | 1 => 8
  | 2 => 16
  | 3 => 32

/-- The retry interval of a code, in microseconds (TABLE 3-4). -/
def retryMicros : Fin 4 → Nat
  | 0 => 50
  | 1 => 200
  | 2 => 800
  | 3 => 3200

/-- The fetch timeout of a code, in microseconds (TABLE 3-4). -/
def fetchMicros : Fin 4 → Nat
  | 0 => 2000
  | 1 => 8000
  | 2 => 32000
  | 3 => 128000

/-- The patience code in force. Before START there is no configuration and no reader of it (R58); the model then reads code 0 (log 18). -/
def State.patience (s : State) : Nat := patienceLimit (s.config.elim 0 (·.patience))

/-- The retry interval in force (R65); see `State.patience` for a station that is not started. -/
def State.retryInterval (s : State) : Nat := retryMicros (s.config.elim 0 (·.retry))

/-- The fetch timeout in force (R78); see `State.patience` for a station that is not started. -/
def State.fetchTimeout (s : State) : Nat := fetchMicros (s.config.elim 0 (·.timeout))

/-- The fault policy in force (R128); see `State.patience` for a station that is not started. -/
def State.policy (s : State) : Policy := s.config.elim .report (·.policy)

/-- The class in force (R155); see `State.patience` for a station that is not started. -/
def State.cls (s : State) : StationClass := s.config.elim .low (·.cls)

/-! ## The station number -/

/-- Whether `n` is this station's strap number (R152). -/
def State.isSelf (s : State) (n : Station) : Bool := n.val == s.strap.toNat

/-- This station's number, if the straps give one (R152). -/
def State.self? (s : State) : Option Station :=
  if h : s.strap.toNat < 12 then some ⟨s.strap.toNat, h⟩ else none

/-- A four-bit field read as a station number, if it names one (R10). -/
def station? (n : Nat) : Option Station := if h : n < 12 then some ⟨n, h⟩ else none

/-- Whether the span unit takes part in rounds (R2). A station held in reset is silent (R151). -/
def State.takesPart (s : State) : Bool :=
  !s.held && (s.station == .listening || s.station == .active || s.station == .contained)

/-! ## Table entries -/

/-- The reach entry of `d` (R60). -/
def State.reachOf (s : State) (d : Station) : ReachEntry := s.reach[d.val]

/-- The station with the reach entry of `d` replaced. -/
def State.setReach (s : State) (d : Station) (e : ReachEntry) : State := { s with reach := s.reach.set d.val e }

/-- Fetch slot `t` (R76). -/
def State.slot (s : State) (t : SlotNo) : FetchSlot := s.slots[t.val]

/-- The station with fetch slot `t` replaced. -/
def State.setSlot (s : State) (t : SlotNo) (f : FetchSlot) : State := { s with slots := s.slots.set t.val f }

/-- The lowest-numbered FREE fetch slot (R42). -/
def State.freeSlot? (s : State) : Option SlotNo := (List.finRange 8).find? fun t => (s.slot t).state == .free

/-- The fetch slots in use (R76). -/
def State.slotsInUse (s : State) : Nat := s.slots.toList.countP fun f => f.state != .free

/-! ## The completion queue (R174 to R178) -/

/-- Whether a record is a request completion, which the budget counts (R172). -/
def Completion.isRequest : Completion → Bool
  | .request .. => true
  | _ => false

/-- Whether a record is the signal notice of signal `n`. -/
def Completion.isSignal (n : SignalNo) : Completion → Bool
  | .signal m _ => m == n
  | _ => false

/-- Whether a record is a station notice of kind `k`. -/
def Completion.isNotice (k : NoticeKind) : Completion → Bool
  | .station k' _ _ => k' == k
  | _ => false

/-- A station notice as a block hands it on: one occurrence with its argument (R177). -/
def notice (k : NoticeKind) (arg : Nat) : Completion := .station k 1 arg

/-- A record of the queue after a further occurrence of kind `k`: the unread notice of that kind has its count raised and its argument
replaced (R178). -/
def coalesce (k : NoticeKind) (arg : Nat) : Completion → Completion
  | .station k' n a => if k' == k then .station k' (bump n) arg else .station k' n a
  | c => c

/-- One record handed on: a station notice coalesces with an unread one of its kind; every other record joins at the tail
(R176, R178). -/
def push (q : List Completion) : Completion → List Completion
  | .station k n arg => if q.any (Completion.isNotice k) then q.map (coalesce k arg) else q ++ [.station k n arg]
  | c => q ++ [c]

/-- A group of records, which is appended as one run (R53, R88, R121, R176). -/
abbrev Group := List Completion

/-- The groups that still hold a record, block by block, without the blocks that hand on none. -/
def live (streams : List (List Group)) : List (List Group) :=
  (streams.map fun gs => gs.filter fun g => !g.isEmpty).filter fun gs => !gs.isEmpty

/-- The groups of several blocks in one order that keeps each block's own order and each group whole, picked by `c` (R176: "either may
be taken first and stand first"). A single block's groups stand in its order whatever `c` is. `fuel` bounds the number of groups. -/
def interleave : Nat → Nat → List (List Group) → List Completion
  | 0, _, streams => streams.flatten.flatten
  | _ + 1, _, [] => []
  | _ + 1, _, [gs] => gs.flatten
  | fuel + 1, c, streams =>
    match streams[c % streams.length]? with
    | some (g :: gs) =>
      g ++ interleave fuel (c / streams.length) (live (streams.set (c % streams.length) gs))
    | _ => streams.flatten.flatten

/-- The records of one event in the order they join the queue, where `c` picks among the orders the spec leaves open. -/
def arrange (c : Nat) (streams : List (List Group)) : List Completion :=
  interleave (live streams).flatten.length c (live streams)

/-- The records of one event join the completion queue. Where two or more blocks hand on records, their order is a free choice
(log 2), and the counter of choices advances. -/
def State.handOn (s : State) (streams : List (List Group)) : State :=
  { s with
    completions := (arrange (Config.choice s.choices) streams).foldl push s.completions
    choices := if (live streams).length ≤ 1 then s.choices else s.choices + 1 }

/-! ## What the blocks hand on at one event -/

/-- The groups each block hands to the completion queue at one event, each block's in its own order. WENT_OFFLINE stands alone in `controller`
(log 22). -/
structure Handed where
  span : List Group := []
  controller : List Group := []
  sendQueue : List Group := []
  reach : List Group := []
  fetch : List Group := []
  returns : List Group := []
  signal : List Group := []
  contain : List Group := []

/-- Nothing handed on. -/
def Handed.none : Handed := {}

/-- What is handed on by one effect and then by another. -/
def Handed.add (a b : Handed) : Handed :=
  { span := a.span ++ b.span
    controller := a.controller ++ b.controller
    sendQueue := a.sendQueue ++ b.sendQueue
    reach := a.reach ++ b.reach
    fetch := a.fetch ++ b.fetch
    returns := a.returns ++ b.returns
    signal := a.signal ++ b.signal
    contain := a.contain ++ b.contain }

/-- The groups of the blocks. -/
def Handed.streams (h : Handed) : List (List Group) :=
  [h.span, h.controller, h.sendQueue, h.reach, h.fetch, h.returns, h.signal, h.contain]

/-- An effect on the blocks with what they hand on to the completion queue meanwhile. -/
abbrev Effect := State × Handed

/-- An effect that hands on nothing. -/
def quiet (s : State) : Effect := (s, .none)

/-- One effect and then another. -/
def Effect.andThen (e : Effect) (f : State → Effect) : Effect := ((f e.1).1, e.2.add (f e.1).2)

/-- The effect of a whole event: what was handed on joins the completion queue in the same act (R176). -/
def Effect.done (e : Effect) : State := e.1.handOn e.2.streams

/-- The `n`-th of the choices open at an event, as a yes or a no, and the counter past it (log 3). -/
def State.choose (s : State) : Bool × State := (Config.choice s.choices % 2 == 1, { s with choices := s.choices + 1 })

end Sys2Proof.Machine
end

