-- ==== Sys2Proof/Machine/Formats.lean ====
section
/-! DEFINITION. The layouts and codes of chapter 11 that the span and the slave window carry: parcels, answers, results, records. -/

namespace Sys2Proof.Machine

/-! ## Parcel header (TABLE 11-1) -/

/-- The fields of a parcel header as its bits give them, before any of them is judged (R10, R184, R185). -/
structure Header where
  kind : Nat
  sender : Nat
  dest : Nat
  room : Bool
  lo : Bool
  hp : Nat
  lp : Nat
  high : StationSet
  deriving DecidableEq, Repr

/-- The two header words of a header; the unassigned bits are zero (TABLE 11-1, R184). -/
def headerWords (h : Header) : Word × Word :=
  (pack [(h.kind, 28), (h.sender, 24), (h.dest, 20), (bitOf h.room, 19), (bitOf h.lo, 18), (h.hp, 12), (h.lp, 8)],
    pack [(h.high.toNat, 0)])

/-- The header that two words carry; unassigned bits are ignored (TABLE 11-1, R184). -/
def readHeader (w0 w1 : Word) : Header :=
  { kind := bits w0 28 4, sender := bits w0 24 4, dest := bits w0 20 4, room := bit w0 19, lo := bit w0 18
    hp := bits w0 12 4, lp := bits w0 8 4, high := BitVec.ofNat 12 (bits w1 0 12) }

/-- The stamp of a header, if both its pointers are station numbers (R185). -/
def Header.stamp? (h : Header) : Option Stamp :=
  match station? h.hp, station? h.lp with
  | some hp, some lp => some { hp := hp, lp := lp, lo := h.lo, high := h.high }
  | _, _ => none

/-! ## Parcel bodies (TABLES 11-2 and 11-3) -/

/-- The parcel kind code of a body (TABLE 11-2). -/
def Body.kindCode : Body → Nat
  | .post .. => 0x1
  | .fetch .. => 0x2
  | .signal .. => 0x3
  | .ret .. => 0x4
  | .hello .. => 0x8
  | .contain .. => 0x9

/-- Whether a kind code is one whose parcels are addressed to a station (R10): POST, FETCH, SIGNAL, RETURN. -/
def addressedKind (kind : Nat) : Bool := kind == 0x1 || kind == 0x2 || kind == 0x3 || kind == 0x4

/-- The code of a class: 1 HIGH, 0 LOW. -/
def classCode : StationClass → Nat
  | .high => 1
  | .low => 0

/-- The code of a fault policy: 1 HALT, 0 REPORT. -/
def policyCode : Policy → Nat
  | .halt => 1
  | .report => 0

/-- The class a bit names. -/
def classOf (b : Bool) : StationClass := if b then .high else .low

/-- The fault policy a bit names. -/
def policyOf (b : Bool) : Policy := if b then .halt else .report

/-- The code of a mode: 1 HALTED, 0 REPORTED. -/
def modeCode : ContainMode → Nat
  | .halted => 1
  | .reported => 0

/-- The code of a cause: 0 APPLY_FAULT, 1 IMPLICATED. -/
def causeCode : FaultCause → Nat
  | .applyFault => 0
  | .implicated => 1

/-- The body words of a body (TABLE 11-3); unassigned bits are zero (R184). -/
def bodyWords : Body → List Word
  | .post addr data => pack [(data.length, 0)] :: addr :: data
  | .fetch addr length tag => [pack [(length, 0), (tag.val, 8)], addr]
  | .signal n => [pack [(n.val, 0)]]
  | .ret tag (.ok data) => pack [(tag.val, 8), (0, 16)] :: data
  | .ret tag .readError => [pack [(tag.val, 8), (1, 16)]]
  | .hello cls policy => [pack [(classCode cls, 0), (policyCode policy, 1)]]
  | .contain mode cause named addr length =>
    [pack [(modeCode mode, 0), (causeCode cause, 1), (length, 8), (named.toNat, 16)], addr]

/-- Whether a length field is 1 to 16 (R184). -/
def validLength (n : Nat) : Bool := 1 ≤ n && n ≤ 16

/-- The body that the words of a parcel carry for its kind code, or none when the parcel is malformed (TABLE 11-3, R184). -/
def readBody : Nat → List Word → Option Body
  | 0x1, w :: addr :: data =>
    if validLength (bits w 0 5) && data.length == bits w 0 5 then some (.post addr data) else none
  | 0x2, [w, addr] =>
    if h : bits w 8 4 < 8 then
      if validLength (bits w 0 5) then some (.fetch addr (bits w 0 5) ⟨bits w 8 4, h⟩) else none
    else none
  | 0x3, [w] => some (.signal (Fin.ofNat 16 (bits w 0 4)))
  | 0x4, w :: data =>
    if bits w 16 2 == 0 then
      if validLength data.length then some (.ret (Fin.ofNat 16 (bits w 8 4)) (.ok data)) else none
    else if bits w 16 2 == 1 && data.isEmpty then some (.ret (Fin.ofNat 16 (bits w 8 4)) .readError)
    else none
  | 0x8, [w] => some (.hello (classOf (bit w 0)) (policyOf (bit w 1)))
  | 0x9, [w, addr] =>
    if validLength (bits w 8 5) then
      some (.contain (if bit w 0 then .halted else .reported) (if bit w 1 then .implicated else .applyFault)
        (BitVec.ofNat 12 (bits w 16 12)) addr (bits w 8 5))
    else none
  | _, _ => none

/-! ## Answers (TABLE 11-5) -/

/-- The code of an answer. -/
def answerCode : AnswerCode → BitVec 3
  | .taken => 1
  | .full => 2
  | .refused => 3
  | .outside => 4
  | .stale => 5

/-- The answer outcomes (R13): a good answer, VOID or SILENT. -/
inductive AnswerOutcome where
  | good (code : AnswerCode)
  | void
  | silent
  deriving DecidableEq, Repr

/-- What the answer window held, classified (R13); an undefined code is read as VOID (R186). -/
def readAnswer : AnswerReport → AnswerOutcome
  | .empty => .silent
  | .garbled => .void
  | .code c =>
    if c = 1 then .good .taken
    else if c = 2 then .good .full
    else if c = 3 then .good .refused
    else if c = 4 then .good .outside
    else if c = 5 then .good .stale
    else .void

/-! ## Codes of the slave window -/

/-- The result codes (TABLE 11-10). -/
def Result.code : Result → Nat
  | .none => 0x00
  | .accepted => 0x01
  | .notStarted => 0x10
  | .contained => 0x11
  | .offline => 0x12
  | .badKind => 0x20
  | .badDest => 0x21
  | .badLength => 0x22
  | .badAddress => 0x23
  | .badSignal => 0x24
  | .destUnreachable => 0x30
  | .destContained => 0x31
  | .queueFull => 0x32
  | .budgetExhausted => 0x33
  | .alreadyStarted => 0x40
  | .badStrap => 0x41
  | .badCode => 0x42
  | .badWindow => 0x43
  | .notPending => 0x50
  | .noticeUnread => 0x51
  | .noRecord => 0x52
  | .logHeld => 0x53

/-- The completion status codes (TABLE 11-11). -/
def Status.code : Status → Nat
  | .done => 1
  | .fetched => 2
  | .fullExhausted => 3
  | .outsideWindow => 4
  | .cancelled => 5
  | .unreachable => 6
  | .destContained => 7
  | .localContained => 8
  | .fetchTimeout => 9
  | .readError => 10
  | .landError => 11
  | .destRestarted => 12

/-- The station notice kind codes (11 section 11.6). -/
def NoticeKind.code : NoticeKind → Nat
  | .localFault => 1
  | .peerHalted => 2
  | .peerFaulted => 3
  | .postLost => 4
  | .peerRestarted => 5
  | .spanUnsteady => 6
  | .returnStale => 7
  | .wentOffline => 8

/-- The cause code DUPLICATE_NUMBER, the argument of WENT_OFFLINE (11 section 11.6). -/
def duplicateNumber : Nat := 1

/-- The request kind codes of the queued requests (TABLE 11-8). -/
def RequestKind.code : RequestKind → Nat
  | .post => 0x1
  | .fetch => 0x2
  | .signal => 0x3

/-- The reach state codes (TABLE 11-9). -/
def ReachState.code : ReachState → Nat
  | .unknown => 0
  | .reachable => 1
  | .waiting => 2
  | .unreachable => 3
  | .contained => 4
  | .self => 5

/-- The station state codes (TABLE 11-14). -/
def StationState.code : StationState → Nat
  | .unstarted => 0
  | .listening => 1
  | .active => 2
  | .contained => 3
  | .offline => 4

/-- Four view words of which the first two are filled; the others are zero (TABLES 11-9, 11-12). Within a filled word the bits that its layout
does not assign are zero (log 23). -/
def viewWords (w0 w1 : Word) : Vector Word 4 := #v[w0, w1, 0, 0]

/-- A completion record in the VIEW words (TABLE 11-12). -/
def Completion.words : Completion → Vector Word 4
  | .request cookie kind dest status =>
    viewWords (pack [(1, 0), (kind.code, 4), (dest.val, 8), (status.code, 16)]) (pack [(cookie.toNat, 0)])
  | .signal n first => viewWords (pack [(2, 0), (n.val, 4), (first.val, 8)]) 0
  | .station kind count arg => viewWords (pack [(3, 0), (kind.code, 4), (count, 16)]) (pack [(arg, 0)])

/-- A fault record in the RESULT VIEW words (TABLE 11-13). -/
def FaultRecord.words (r : FaultRecord) : Vector Word 4 :=
  viewWords (pack [(causeCode r.cause, 0), (bitOf r.halted, 1), (r.peer.val, 8), (r.length, 16)]) r.addr

/-- A reach entry in the RESULT VIEW words (TABLE 11-9, R74). -/
def ReachEntry.words (e : ReachEntry) : Vector Word 4 :=
  viewWords (pack [(e.state.code, 0), (e.silence, 4), (bitOf (e.timer != .stopped), 8)]) 0

end Sys2Proof.Machine
end

