-- ==== Sys2Proof/Machine/Operands.lean ====
section
/-! DEFINITION. The fields of a composed request, read from the bits TABLE 11-7 gives them (R167, R187), and what a read of a window word
returns (R166). -/

namespace Sys2Proof.Machine

/-- Request header word `i`. -/
def NodePort.headerWord (p : NodePort) (i : Fin 4) : Word := p.header[i.val]

/-- Request data word `i`. -/
def NodePort.dataWord (p : NodePort) (i : Fin 16) : Word := p.data[i.val]

/-- The kind field (TABLE 11-7: word 0, bits 3–0). -/
def NodePort.kind (p : NodePort) : Nat := bits (p.headerWord 0) 0 4

/-- The destination field (word 0, bits 11–8). -/
def NodePort.dest (p : NodePort) : Nat := bits (p.headerWord 0) 8 4

/-- The length field (word 0, bits 20–16). -/
def NodePort.length (p : NodePort) : Nat := bits (p.headerWord 0) 16 5

/-- The signal number field (word 0, bits 28–24). -/
def NodePort.signalNo (p : NodePort) : Nat := bits (p.headerWord 0) 24 5

/-- The report flag (word 0, bit 31). -/
def NodePort.reportFlag (p : NodePort) : Bool := bit (p.headerWord 0) 31

/-- The remote address (word 1). -/
def NodePort.remote (p : NodePort) : Word := p.headerWord 1

/-- The fault index of a READ_FAULT (word 1). -/
def NodePort.faultIndex (p : NodePort) : Nat := (p.headerWord 1).toNat

/-- The station number of a READ_REACH (word 1, bits 3–0). -/
def NodePort.stationNo (p : NodePort) : Nat := bits (p.headerWord 1) 0 4

/-- The patience code of a START (word 1, bits 6–4). -/
def NodePort.patience (p : NodePort) : Nat := bits (p.headerWord 1) 4 3

/-- The retry code of a START (word 1, bits 10–8). -/
def NodePort.retry (p : NodePort) : Nat := bits (p.headerWord 1) 8 3

/-- The fetch-timeout code of a START (word 1, bits 14–12). -/
def NodePort.timeout (p : NodePort) : Nat := bits (p.headerWord 1) 12 3

/-- The landing address of a FETCH and the window base of a START (word 2). -/
def NodePort.landing (p : NodePort) : Word := p.headerWord 2

/-- The cookie of a queued request (word 3, bits 15–0). -/
def NodePort.cookie (p : NodePort) : BitVec 16 := BitVec.ofNat 16 (bits (p.headerWord 3) 0 16)

/-- The window size of a START in pages (word 3, bits 15–0). -/
def NodePort.windowPages (p : NodePort) : BitVec 16 := BitVec.ofNat 16 (bits (p.headerWord 3) 0 16)

/-- The 16 enables of a SET_MASK and the initial signal mask of a START (data word 0, bits 15–0). -/
def NodePort.mask (p : NodePort) : BitVec 16 := BitVec.ofNat 16 (bits (p.dataWord 0) 0 16)

/-- The first `n` data words, which hold the words of a POST of that length (R187). -/
def NodePort.words (p : NodePort) (n : Nat) : List Word := p.data.toList.take n

/-- Whether an address is a multiple of 4 and its range ends at or below 2^32, taken without wrapping (R170 check 5). -/
def rangeFits (addr : Word) (length : Nat) : Bool :=
  addr.toNat % 4 == 0 && addr.toNat + 4 * length ≤ Config.addressSpace

/-- The configuration a START carries, when its timing codes are 0 to 3 (R155, R59). -/
def NodePort.startConfig (p : NodePort) : Option StationConfig :=
  if h : p.patience < 4 ∧ p.retry < 4 ∧ p.timeout < 4 then
    some
      { cls := classOf (bit (p.headerWord 1) 0)
        policy := policyOf (bit (p.headerWord 1) 1)
        patience := ⟨p.patience, h.1⟩
        retry := ⟨p.retry, h.2.1⟩
        timeout := ⟨p.timeout, h.2.2⟩
        windowBase := p.landing
        windowPages := p.windowPages
        signalMask := p.mask }
  else none

/-- Whether the window of a START is aligned and ends at or below 2^32 (R93, R154 check 4). -/
def windowFits (c : StationConfig) : Bool :=
  c.windowBase.toNat % Config.pageBytes == 0 &&
    c.windowBase.toNat + Config.pageBytes * c.windowPages.toNat ≤ Config.addressSpace

/-- The window test of a POST or FETCH parcel: the address is aligned and the range lies inside the exposed window, taken without
wrapping (R96). Before START there is no window (R93). -/
def State.windowTest (s : State) (addr : Word) (length : Nat) : Bool :=
  match s.config with
  | none => false
  | some c =>
    addr.toNat % 4 == 0 && c.windowBase.toNat ≤ addr.toNat &&
      addr.toNat + 4 * length ≤ c.windowBase.toNat + Config.pageBytes * c.windowPages.toNat

end Sys2Proof.Machine
end

