-- ==== Sys2Proof/Machine/Flags.lean ====
section
/-! DEFINITION. The views of the station that the spec computes from its state: counts, the room flag, the notice line, the STATUS words
and what a read of a window word returns. -/

namespace Sys2Proof.Machine

/-- The free places of the inbound queue; a provisional entry occupies a place (R94). -/
def State.freePlaces (s : State) : Nat := Config.inboundCapacity - s.inbound.length

/-- The room flag of this station's own parcel (R7). -/
def State.roomFlag (s : State) : Bool := decide (Config.roomPlaces ≤ s.freePlaces) && s.station != .contained

/-- The request completion records in the completion queue (R172). -/
def State.unreadRequests (s : State) : Nat := s.completions.countP Completion.isRequest

/-- The budget sum (10 section 10.1, R172). -/
def State.budgetSum (s : State) : Nat := s.sendQueue.length + s.slotsInUse + s.unreadRequests

/-- The notice line: asserted while the completion queue holds a record, and deasserted in reset (R151, R180). -/
def State.noticeLine (s : State) : Bool := !s.held && !s.completions.isEmpty

/-- STATUS word 0 (R181, TABLE 11-14). Its class and policy bits are 0 without a configuration (R153); its unassigned bit is 0 (log 23). -/
def State.statusWord0 (s : State) : Word :=
  pack
    [(s.station.code, 0), (s.strap.toNat, 3), (s.config.elim 0 fun c => classCode c.cls, 7),
      (s.config.elim 0 fun c => policyCode c.policy, 8), (s.sendQueue.length, 9), (s.slotsInUse, 15),
      (s.inbound.length, 19), (s.completions.length, 24)]

/-- STATUS word 1 (R181, TABLE 11-14); its unassigned bits are 0 (log 23). -/
def State.statusWord1 (s : State) : Word :=
  pack [(s.contain.log.length, 0), (s.contain.overflow, 8), (s.span.voidRun, 16), (s.turn.repair, 24)]

/-- What a read of the window word at a byte offset returns (R166, TABLE 11-6). The reads it describes change no state; a read of TAKE is
the command TAKE, and its word is in `takeWord`. The unassigned bits of RESULT are zero (log 23). A station held in reset returns zero (R151), and so does a word the window does not
define. -/
def State.readWindow (s : State) (offset : BitVec 8) : Word :=
  let i := offset.toNat / 4
  if s.held || offset.toNat % 4 != 0 then 0
  else if h : i < 4 then s.port.header[i]
  else if h : i - 4 < 16 then s.port.data[i - 4]
  else if offset = 0x54 then pack [(s.port.result.code, 0)]
  else if h : 0x58 ≤ offset.toNat ∧ i - 22 < 4 then s.port.resultView[i - 22]
  else if h : 0x6C ≤ offset.toNat ∧ i - 27 < 4 then s.port.view[i - 27]
  else if offset = 0x7C then s.statusWord0
  else if offset = 0x80 then s.statusWord1
  else 0

end Sys2Proof.Machine
end

