-- ==== Sys2Proof/Machine/Path.lean ====
section
/-! DEFINITION. The node memory path (R112 to R114): one access at a time, for the apply engine or for landing. -/

namespace Sys2Proof.Machine

/-- The apply engine asks for an access: it is started at once on a FREE path, and waits otherwise (R99, R100, R101, R112). -/
def State.askApply (s : State) (a : Access) : State :=
  if s.path.state = .free then
    { s with path := { s.path with state := .busy .apply a, lastServed := .apply }, engine := .inAccess }
  else { s with path := { s.path with applyWaiting := some a }, engine := .pathWait }

/-- A slot that becomes LANDING asks for its write access (R83, R112). -/
def State.askLanding (s : State) (t : SlotNo) (a : Access) : State :=
  if s.path.state = .free then
    { s with path := { s.path with state := .busy (.landing t) a, lastServed := .landing } }
  else { s with path := { s.path with landingWaiting := s.path.landingWaiting ++ [(t, a)] } }

/-- The path starts the waiting request of the apply engine. -/
def State.startApply (s : State) (a : Access) : State :=
  { s with
    path := { s.path with state := .busy .apply a, applyWaiting := none, lastServed := .apply }
    engine := .inAccess }

/-- The path starts the oldest landing request, `rest` being those behind it. -/
def State.startLanding (s : State) (t : SlotNo) (a : Access) (rest : List (SlotNo × Access)) : State :=
  { s with path := { s.path with state := .busy (.landing t) a, landingWaiting := rest, lastServed := .landing } }

/-- The path falls FREE and starts a waiting request, if one waits: where both users wait, that of the user not served last
(R112, R113). -/
def State.pathFallsFree (s : State) : State :=
  match s.path.applyWaiting, s.path.landingWaiting with
  | none, [] => { s with path := { s.path with state := .free } }
  | some a, [] => s.startApply a
  | none, (t, b) :: rest => s.startLanding t b rest
  | some a, (t, b) :: rest =>
    if s.path.lastServed = .landing then s.startApply a else s.startLanding t b rest

/-- The path at a reset: an access in flight is abandoned and the waiting requests are withdrawn (R114). -/
def MemPath.abandon (p : MemPath) : MemPath :=
  { state :=
      match p.state with
      | .busy _ a => .abandoned a
      | other => other
    applyWaiting := none
    landingWaiting := []
    lastServed := p.lastServed }

end Sys2Proof.Machine
end

