-- ==== Sys2Proof/Machine/Signals.lean ====
section
/-! DEFINITION. The signal table (chapter 7): raises, the mask, the reading of a notice and the close of an episode. -/

namespace Sys2Proof.Machine

/-- Signal entry `n` (R116). -/
def State.signalOf (s : State) (n : SignalNo) : SignalEntry := s.signals[n.val]

/-- The station with signal entry `n` replaced. -/
def State.setSignal (s : State) (n : SignalNo) (e : SignalEntry) : State := { s with signals := s.signals.set n.val e }

/-- The entry after a raise from `source` (R117, R118). -/
def SignalEntry.raised (e : SignalEntry) (source : Station) : SignalEntry :=
  if e.pending then { e with count := bump e.count }
  else
    { e with
      pending := true
      count := 1
      first := some source
      notice := if e.enabled then .unread else e.notice }

/-- The notice that a raise of signal `n` from `source` writes: one when it opens an episode with the signal enabled
(R117, R118). -/
def SignalEntry.raiseNotice (e : SignalEntry) (n : SignalNo) (source : Station) : List Group :=
  if !e.pending && e.enabled then [[.signal n source]] else []

/-- A raise of signal `n` from `source` (R102, R117, R118). -/
def State.raiseSignal (s : State) (n : SignalNo) (source : Station) : Effect :=
  (s.setSignal n ((s.signalOf n).raised source),
    { Handed.none with signal := (s.signalOf n).raiseNotice n source })

/-- Whether SET_MASK writes the entry's notice: it is pending in NONE and now enabled (R121). -/
def SignalEntry.maskNotifies (e : SignalEntry) (enable : Bool) : Bool := enable && e.pending && e.notice == .none

/-- The entry under a new enable (R121). -/
def SignalEntry.masked (e : SignalEntry) (enable : Bool) : SignalEntry :=
  { e with
    enabled := enable
    notice := if e.maskNotifies enable then .unread else e.notice }

/-- The notices of one SET_MASK, in rising signal number (R121). A pending entry has a first source (R116); for one without, which no run reaches, no
notice joins the queue: DESIGN CHOICE (log 18, safe). -/
def State.maskNotices (s : State) (mask : BitVec 16) : Group :=
  (List.finRange 16).filterMap fun n =>
    if (s.signalOf n).maskNotifies (mask.getLsbD n.val) then (s.signalOf n).first.map fun f => .signal n f else none

/-- SET_MASK: all 16 enables in one act, with the notices it writes (R121). -/
def State.applyMask (s : State) (mask : BitVec 16) : Effect :=
  ({ s with signals := Vector.ofFn fun n => (s.signalOf n).masked (mask.getLsbD n.val) },
    { Handed.none with signal := [s.maskNotices mask] })

/-- START: the enables from the initial mask and nothing else (R126). -/
def State.initMask (s : State) (mask : BitVec 16) : State :=
  { s with signals := Vector.ofFn fun n => { s.signalOf n with enabled := mask.getLsbD n.val } }

/-- The enable mask in force. -/
def State.enableMask (s : State) : Nat :=
  ((List.finRange 16).map fun n => bitOf (s.signalOf n).enabled * 2 ^ n.val).sum

/-- The reading of the notice of signal `n`: UNREAD becomes READ (R119). -/
def State.readNotice (s : State) (n : SignalNo) : State :=
  s.setSignal n
    { s.signalOf n with notice := if (s.signalOf n).notice = .unread then .read else (s.signalOf n).notice }

/-- The entries after RESTART: every episode cleared, every enable kept (R127). -/
def State.clearEpisodes (s : State) : Vector SignalEntry 16 := Vector.ofFn fun n => idleSignal (s.signalOf n).enabled

/-- The result of ACK_SIGNAL for number `n` of a started station, first failing check first (R122). -/
def State.ackCheck (s : State) (n : Nat) : Result :=
  if h : n < 16 then
    if !(s.signalOf ⟨n, h⟩).pending then .notPending
    else if (s.signalOf ⟨n, h⟩).notice = .unread then .noticeUnread
    else .accepted
  else .badSignal

end Sys2Proof.Machine
end

