-- ==== Sys2Proof/Machine/ApplyEngine.lean ====
section
/-! DEFINITION. The inbound queue, the apply engine and the return list (chapter 6). -/

namespace Sys2Proof.Machine

/-! ## Acceptance -/

/-- The inbound operation of a parcel body that the inbound queue consumes (TABLE 1-2, TABLE 6-1). -/
def Body.inbound? : Body → Option InboundOp
  | .post addr data => some (.post addr data)
  | .fetch addr length tag => some (.fetch addr length tag)
  | .signal n => some (.signal n)
  | _ => none

/-- Whether an operation passes the window test; a SIGNAL carries no range (R93, R96). -/
def State.insideWindow (s : State) : InboundOp → Bool
  | .post addr data => s.windowTest addr data.length
  | .fetch addr length _ => s.windowTest addr length
  | .signal _ => true

/-- The answer code to a POST, FETCH or SIGNAL: the first row of R95 whose condition holds. -/
def State.inboundAnswer (s : State) (op : InboundOp) : AnswerCode :=
  if s.station = .contained then .refused
  else if !s.insideWindow op then .outside
  else if s.freePlaces = 0 then .full
  else .taken

/-- The answer to a POST, FETCH or SIGNAL, and the provisional entry it makes exactly when it is TAKEN (R95, R97). -/
def State.answerInbound (s : State) (source : Station) (op : InboundOp) : AnswerCode × State :=
  (s.inboundAnswer op,
    if s.inboundAnswer op = .taken then
      { s with inbound := s.inbound ++ [{ op := op, source := source, provisional := true }] }
    else s)

/-- The provisional entry at the answer close of its round: committed on a good TAKEN, discarded otherwise (R98). -/
def State.settleProvisional (s : State) (taken : Bool) : State :=
  { s with
    inbound :=
      if taken then s.inbound.map fun e => { e with provisional := false }
      else s.inbound.filter fun e => !e.provisional }

/-! ## The apply engine -/

/-- The engine asks for the access of its head: a write for a POST (R100); a read for a FETCH when the return list has a place, and
ROOM_WAIT otherwise (R101). Without a committed head it is IDLE (R99). -/
def State.applyHead (s : State) : State :=
  match s.inbound with
  | [] => { s with engine := .idle }
  | e :: _ =>
    if e.provisional then { s with engine := .idle }
    else
      match e.op with
      | .post addr data => s.askApply (.write addr data)
      | .fetch addr length _ =>
        if s.returns.length < Config.returnCapacity then s.askApply (.read addr length)
        else { s with engine := .roomWait }
      | .signal _ => { s with engine := .idle }

/-- The committed SIGNALs at the head of the queue `q` are raised and removed one after another (R99, R102); the queue left is the one
in the state. -/
def State.raiseHeads (s : State) : List InboundEntry → Effect
  | [] => quiet { s with inbound := [] }
  | e :: rest =>
    if e.provisional then quiet { s with inbound := e :: rest }
    else
      match e.op with
      | .signal n => (s.raiseSignal n e.source).andThen fun s' => s'.raiseHeads rest
      | _ => quiet { s with inbound := e :: rest }

/-- The engine takes the next head: it raises the SIGNALs in front and asks for the access of the POST or FETCH behind them, or goes
IDLE (R99 to R102). -/
def State.takeHead (s : State) : Effect := (s.raiseHeads s.inbound).andThen fun s' => quiet s'.applyHead

/-- An IDLE engine of a station that is not CONTAINED takes the head (R99). -/
def State.wakeEngine (s : State) : Effect :=
  if s.engine = .idle ∧ s.station ≠ .contained then s.takeHead else quiet s

/-- The engine after its entry in progress has ended: the next head, or STOPPED in containment (R99, R104). -/
def State.engineGoesOn (s : State) : Effect :=
  if s.station = .contained then quiet { s with engine := .stopped } else { s with engine := .idle }.takeHead

/-- An engine in ROOM_WAIT asks for its read at the first event that leaves the return list with a place (R101, R103). With a head that is no FETCH,
which no run reaches, it asks for that head's access or goes IDLE: DESIGN CHOICE (log 18, safe). -/
def State.leaveRoomWait (s : State) : State :=
  if s.engine = .roomWait ∧ s.returns.length < Config.returnCapacity then s.applyHead else s

/-- The head entry is removed from the inbound queue (R94). -/
def State.dropHead (s : State) : State := { s with inbound := s.inbound.tail }

/-- The engine at containment entry (R104): an access in flight is not cut off; otherwise the engine is STOPPED and a request that waits
at the path is withdrawn. -/
def State.stopEngine (s : State) : State :=
  if s.engine = .inAccess then s
  else { s with engine := .stopped, path := { s.path with applyWaiting := none } }

/-! ## The return list -/

/-- A RETURN joins the return list, or is dropped when its requester is UNREACHABLE or CONTAINED (R106). -/
def State.joinReturn (s : State) (requester : Station) (tag : SlotNo) (result : FetchResult) : State :=
  if (s.reachOf requester).state = .unreachable ∨ (s.reachOf requester).state = .contained then s
  else { s with returns := s.returns ++ [{ requester := requester, tag := tag, result := result, inFlight := false }] }

/-- Whether the transmit selector may offer a RETURN (R4, R107). -/
def State.offersReturn (s : State) (r : ReturnEntry) : Bool :=
  (s.reachOf r.requester).state != .unreachable && (s.reachOf r.requester).state != .contained

/-- The place of the oldest RETURN that may be offered (R107). -/
def State.oldestReturn (s : State) : Option Nat := s.returns.findIdx? s.offersReturn

/-- The RETURN in flight (R107). Of several, which no run reaches, it is the oldest, and they all stay or leave together: DESIGN CHOICE (log 18,
safe). -/
def State.inFlightReturn (s : State) : Option ReturnEntry := s.returns.find? (·.inFlight)

/-- The RETURN in flight is again an ordinary member of the list (R107). -/
def State.releaseReturn (s : State) : State :=
  { s with returns := s.returns.map fun r => { r with inFlight := false } }

/-- The RETURN in flight leaves the list (R108 to R110); an engine in ROOM_WAIT goes on (R103). -/
def State.removeReturn (s : State) : State := { s with returns := s.returns.filter fun r => !r.inFlight }.leaveRoomWait

/-- Every RETURN to `d` but the one in flight is dropped (R71, R110); an engine in ROOM_WAIT goes on (R103). -/
def State.dropReturns (s : State) (d : Station) : State :=
  { s with returns := s.returns.filter fun r => r.inFlight || r.requester != d }.leaveRoomWait

end Sys2Proof.Machine
end

