-- ==== Sys2Proof/Machine/FetchTable.lean ====
section
/-! DEFINITION. The fetch table (chapter 5): allocation, the answer to a RETURN, the deciding close, landing, expiry and failures. -/

namespace Sys2Proof.Machine

/-- The completion record of a fetch that ends (R88). -/
def FetchSlot.record (f : FetchSlot) (status : Status) : Completion := .request f.cookie .fetch f.dest status

/-- Slot `t` becomes FREE with its record, in one act (R88). -/
def State.endFetch (s : State) (t : SlotNo) (status : Status) : Effect :=
  (s.setSlot t freeSlot, { Handed.none with fetch := [[(s.slot t).record status]] })

/-- The slot named by a taken FETCH's tag becomes AWAITING and its fetch timer is started (R78). The slot is FREE then; a slot that is not, which no
run reaches (a blank cell of TABLE 5-3), is overwritten: DESIGN CHOICE (log 18, safe). -/
def State.allocate (s : State) (t : SlotNo) (dest : Station) (landing : Word) (length : Nat) (cookie : BitVec 16) : State :=
  s.setSlot t
    { state := .awaiting, dest := dest, landing := landing, length := length, cookie := cookie, held := none
      timer := .running s.fetchTimeout, deferred := false }

/-- Whether a RETURN's result fits a slot of this length (R79): the number of data words of an OK equals it. -/
def FetchResult.fits (r : FetchResult) (length : Nat) : Bool :=
  match r with
  | .ok data => data.length == length
  | .readError => true

/-- Whether slot `t` takes a RETURN from `source` with this result: the conditions of R79 on the slot. -/
def State.slotTakes (s : State) (t : SlotNo) (source : Station) (result : FetchResult) : Bool :=
  (s.slot t).state == .awaiting && (s.slot t).dest == source && result.fits (s.slot t).length

/-- The answer to a RETURN from `source` with this tag and result, and the slot it makes HOLDING (R79, R80). -/
def State.answerReturn (s : State) (source : Station) (tag : Fin 16) (result : FetchResult) : AnswerCode × State :=
  if h : tag.val < 8 then
    if s.station != .contained && s.slotTakes ⟨tag.val, h⟩ source result then
      (.taken, s.setSlot ⟨tag.val, h⟩ { s.slot ⟨tag.val, h⟩ with state := .holding, held := some result })
    else (.stale, s)
  else (.stale, s)

/-- Slot `t` becomes LANDING with its data and asks for its write access (R81, R83). -/
def State.land (s : State) (t : SlotNo) (data : List Word) : State :=
  (s.setSlot t { s.slot t with state := .landing, timer := .stopped, deferred := false }).askLanding t
    (.write (s.slot t).landing data)

/-- A HOLDING slot at the answer close of its deciding round (R81, R82, R89, R186). A HOLDING slot has a held result; one without, which no run
reaches, ends with READ_ERROR at a good TAKEN: DESIGN CHOICE (log 18, safe). -/
def State.decideSlot (s : State) (t : SlotNo) (taken : Bool) : Effect :=
  if s.station = .contained then s.endFetch t .localContained
  else if taken then
    match (s.slot t).held with
    | some (.ok data) => quiet (s.land t data)
    | _ => s.endFetch t .readError
  else if (s.slot t).deferred then s.endFetch t .fetchTimeout
  else quiet (s.setSlot t { s.slot t with state := .awaiting, held := none })

/-- The HOLDING slot of the round, if there is one. Of several, which no run reaches, it is the lowest-numbered: DESIGN CHOICE (log 18, safe). -/
def State.holdingSlot? (s : State) : Option SlotNo := (List.finRange 8).find? fun t => (s.slot t).state == .holding

/-- The AWAITING slots that meet `p` are freed with `status`, in one group in rising slot number (R87, R88, R89). -/
def State.failAwaiting (s : State) (p : FetchSlot → Bool) (status : Status) : Effect :=
  ({ s with slots := Vector.ofFn fun t => if (s.slot t).state == .awaiting && p (s.slot t) then freeSlot else s.slot t },
    { Handed.none with
      fetch :=
        [(List.finRange 8).filterMap fun t =>
          if (s.slot t).state == .awaiting && p (s.slot t) then some ((s.slot t).record status) else none] })

/-- The failure of every AWAITING slot for `d` that the reach table hands on (R87). -/
def State.failSlotsFor (s : State) (d : Station) (status : Status) : Effect := s.failAwaiting (fun f => f.dest == d) status

/-- Containment entry at the fetch table (R89): AWAITING slots fail; HOLDING and LANDING slots are left. -/
def State.flushSlots (s : State) : Effect := s.failAwaiting (fun _ => true) .localContained

/-- FETCH_TIMER_EXPIRY of slot `t` (R85, R86): a timer that is stopped does not expire. -/
def State.expireFetch (s : State) (t : SlotNo) : Effect :=
  if (s.slot t).timer = .stopped then quiet s
  else if (s.slot t).state = .awaiting then s.endFetch t .fetchTimeout
  else if (s.slot t).state = .holding then
    quiet (s.setSlot t { s.slot t with timer := .stopped, deferred := true })
  else quiet s

end Sys2Proof.Machine
end

