-- ==== Sys2Proof/Machine/SendQueue.lean ====
section
/-! DEFINITION. The send queue (chapter 3): its lanes, eligibility, the in-flight mark, lane closings and the containment flush. -/

namespace Sys2Proof.Machine

/-- The kind of an entry (TABLE 3-1). -/
def SendEntry.kind (e : SendEntry) : RequestKind :=
  match e.op with
  | .post .. => .post
  | .fetch .. => .fetch
  | .signal .. => .signal

/-- The completion record of an entry that leaves (R40). -/
def SendEntry.record (e : SendEntry) (status : Status) : Completion := .request e.cookie e.kind e.dest status

/-- The operation with the tag of a FETCH written or emptied (R42). -/
def SendOp.withTag : SendOp → Option SlotNo → SendOp
  | .fetch addr length landing _, tag => .fetch addr length landing tag
  | op, _ => op

/-- The entry with its in-flight mark set and, for a FETCH, its tag written (R42, R43). -/
def SendEntry.freeze (e : SendEntry) (tag : Option SlotNo) : SendEntry :=
  { e with inFlight := true, op := e.op.withTag tag }

/-- The entry with its in-flight mark cleared and its tag emptied; it keeps everything else (R43, log 16). -/
def SendEntry.release (e : SendEntry) : SendEntry := { e with inFlight := false, op := e.op.withTag none }

/-- Whether the entry at place `i` of the queue is eligible (R41): no older entry has its destination, the destination is UNKNOWN or
REACHABLE, and a FETCH finds a FREE slot. -/
def State.eligible (s : State) (i : Nat) : Bool :=
  match s.sendQueue[i]? with
  | none => false
  | some e =>
    ((s.sendQueue.take i).all fun older => older.dest != e.dest) &&
      ((s.reachOf e.dest).state == .unknown || (s.reachOf e.dest).state == .reachable) &&
      (e.kind != .fetch || s.freeSlot?.isSome)

/-- The place of the oldest eligible entry (R41). -/
def State.oldestEligible (s : State) : Option Nat := (List.range s.sendQueue.length).find? s.eligible

/-- The in-flight entry (R3). Of several, which no run reaches, it is the oldest, and they all stay or leave together: DESIGN CHOICE (log 18,
safe). -/
def State.inFlightEntry (s : State) : Option SendEntry := s.sendQueue.find? (·.inFlight)

/-- The queue with the in-flight entry released (R43). -/
def State.releaseInFlight (s : State) : State :=
  { s with sendQueue := s.sendQueue.map fun e => if e.inFlight then e.release else e }

/-- The queue without the in-flight entry; the entries on either side close up (R38). -/
def State.removeInFlight (s : State) : State := { s with sendQueue := s.sendQueue.filter fun e => !e.inFlight }

/-- The records of a lane failure: the head with `status`, then CANCELLED for each younger entry, in submission order (R51). -/
def laneRecords (status : Status) : List SendEntry → Group
  | [] => []
  | e :: rest => e.record status :: rest.map fun e' => e'.record .cancelled

/-- The lane to `d` (03 section 3.1). -/
def State.lane (s : State) (d : Station) : List SendEntry := s.sendQueue.filter fun e => e.dest == d

/-- The lane to `d` is closed with `status` (R51, R52); an empty lane is left as it is. -/
def State.closeLane (s : State) (d : Station) (status : Status) : Effect :=
  ({ s with sendQueue := s.sendQueue.filter fun e => e.dest != d },
    { Handed.none with sendQueue := [laneRecords status (s.lane d)] })

/-- The containment flush: every entry but the in-flight one leaves with LOCAL_CONTAINED (R54). -/
def State.flushSends (s : State) : Effect :=
  ({ s with sendQueue := s.sendQueue.filter (·.inFlight) },
    { Handed.none with
      sendQueue := [(s.sendQueue.filter fun e => !e.inFlight).map fun e => e.record .localContained] })

/-- The in-flight entry leaves failed with LOCAL_CONTAINED (R55). -/
def State.failInFlight (s : State) : Effect :=
  (s.removeInFlight,
    { Handed.none with sendQueue := [(s.sendQueue.filter (·.inFlight)).map fun e => e.record .localContained] })

end Sys2Proof.Machine
end

