-- ==== Sys2Proof/Machine/Reach.lean ====
section
/-! DEFINITION. The reach table (chapter 4): hearing a peer, replies, silence, busy, halted and restarted peers. -/

namespace Sys2Proof.Machine

/-- What a reach entry takes from any sign of life: silence count 0, and REACHABLE from UNKNOWN or UNREACHABLE (R62, R63). -/
def ReachEntry.alive (e : ReachEntry) : ReachEntry :=
  { e with
    silence := 0
    state := if e.state = .unknown ∨ e.state = .unreachable then .reachable else e.state }

/-- The room flag of a good parcel: a set flag takes a WAITING entry to REACHABLE and stops its timer (R66). -/
def ReachEntry.room (e : ReachEntry) (flag : Bool) : ReachEntry :=
  if flag ∧ e.state = .waiting then { e with state := .reachable, timer := .stopped } else e

/-- The entry of a peer just heard, with the room flag of its parcel; the SELF entry is left as it is (R60, R62, R66). -/
def ReachEntry.heard (e : ReachEntry) (flag : Bool) : ReachEntry := if e.state = .self then e else e.alive.room flag

/-- D is heard (R62, R66). -/
def State.hear (s : State) (d : Station) (room : Bool) : State := s.setReach d ((s.reachOf d).heard room)

/-- A reply from D is booked (R63). -/
def State.bookReply (s : State) (d : Station) : State :=
  s.setReach d (if (s.reachOf d).state = .self then s.reachOf d else (s.reachOf d).alive)

/-- A reply FULL below patience: booked, then a REACHABLE or WAITING entry is WAITING with its timer started for the retry interval
(R65). -/
def State.replyBusy (s : State) (d : Station) : State :=
  let s' := s.bookReply d
  if (s'.reachOf d).state = .reachable ∨ (s'.reachOf d).state = .waiting then
    s'.setReach d { s'.reachOf d with state := .waiting, timer := .running s.retryInterval }
  else s'

/-- D is closed with a status: its lane and its AWAITING slots fail and its RETURNs are dropped (R71 parts 1 to 3). -/
def State.closeDestination (s : State) (d : Station) (status : Status) : Effect :=
  ((s.closeLane d status).andThen fun s' => s'.failSlotsFor d status).andThen fun s' => quiet (s'.dropReturns d)

/-- A station notice of the reach table. -/
def reachNotice (k : NoticeKind) (d : Station) : Handed := { Handed.none with reach := [[notice k d.val]] }

/-- D's entry becomes CONTAINED: its timer stops, D is closed with DEST_CONTAINED and PEER_HALTED is appended; an entry that is
CONTAINED already, and the SELF entry, are left (R67, R68). -/
def State.peerHalts (s : State) (d : Station) : Effect :=
  if (s.reachOf d).state = .contained ∨ (s.reachOf d).state = .self then quiet s
  else
    ((s.setReach d { s.reachOf d with state := .contained, timer := .stopped }).closeDestination d
        .destContained).andThen fun s' => (s', reachNotice .peerHalted d)

/-- A reply REFUSED from D: booked, then as for a HALTED CONTAIN (R68). -/
def State.replyRefused (s : State) (d : Station) : Effect := (s.bookReply d).peerHalts d

/-- A no-reply from D: the silence count rises, and at 3 an UNKNOWN, REACHABLE or WAITING entry becomes UNREACHABLE and D is closed
(R64). -/
def State.noReply (s : State) (d : Station) : Effect :=
  let e := s.reachOf d
  if e.state = .self then quiet s
  else if Config.silenceLimit ≤ e.silence + 1 ∧ (e.state = .unknown ∨ e.state = .reachable ∨ e.state = .waiting) then
    (s.setReach d { state := .unreachable, silence := Config.silenceLimit, timer := .stopped }).closeDestination d
      .unreachable
  else quiet (s.setReach d { e with silence := min (e.silence + 1) Config.silenceLimit })

/-- A HELLO from D (R70): the entry becomes REACHABLE from any state. Unless it was UNKNOWN, D's AWAITING slots fail with
DEST_RESTARTED and PEER_RESTARTED is appended. -/
def State.peerRestarts (s : State) (d : Station) : Effect :=
  if (s.reachOf d).state = .self then quiet s
  else
    let s' := s.setReach d { state := .reachable, silence := 0, timer := .stopped }
    if (s.reachOf d).state = .unknown then quiet s'
    else (s'.failSlotsFor d .destRestarted).andThen fun s'' => (s'', reachNotice .peerRestarted d)

/-- A REPORTED CONTAIN from D: PEER_FAULTED and nothing more (R69). -/
def State.peerFaults (s : State) (d : Station) : Effect :=
  if (s.reachOf d).state = .self then quiet s else (s, reachNotice .peerFaulted d)

/-- What the reach table does with a good parcel from D: the hearing and the room flag, and for a well-formed HELLO or CONTAIN what its
kind adds (R62, R66, R67, R69, R70, R184). Whether a HELLO finds the entry UNKNOWN is judged before the hearing. -/
def State.reachConsumes (s : State) (d : Station) (room : Bool) : Option Body → Effect
  | some (.hello ..) => s.peerRestarts d
  | some (.contain .halted ..) => (s.hear d room).peerHalts d
  | some (.contain .reported ..) => (s.hear d room).peerFaults d
  | _ => quiet (s.hear d room)

/-- RETRY_TIMER_EXPIRY for D: a WAITING entry becomes REACHABLE; any other is left (R66, R73). -/
def State.expireRetry (s : State) (d : Station) : State :=
  if (s.reachOf d).state = .waiting then s.setReach d { s.reachOf d with state := .reachable, timer := .stopped } else s

end Sys2Proof.Machine
end

