-- ==== Sys2Proof/Machine/Containment.lean ====
section
/-! DEFINITION. The containment unit (chapter 8): apply faults, containment entry, the pending CONTAIN, implication and the fault log. -/

namespace Sys2Proof.Machine

/-- A fault record is added to the log, or counted when the log is full (R144). -/
def State.addFault (s : State) (r : FaultRecord) : State :=
  { s with
    contain :=
      if s.contain.log.length < Config.faultCapacity then { s.contain with log := s.contain.log ++ [r] }
      else { s.contain with overflow := bump s.contain.overflow } }

/-- A station notice of the containment unit (R143). -/
def containNotice (k : NoticeKind) (n : Station) : Handed := { Handed.none with contain := [[notice k n.val]] }

/-- The address and length that an inbound entry covers, as a fault record takes them (R129). Only a POST meets an apply fault; the values for a
FETCH and a SIGNAL, which no run uses, are a DESIGN CHOICE (log 18, safe). -/
def InboundEntry.range (e : InboundEntry) : Word × Nat :=
  match e.op with
  | .post addr data => (addr, data.length)
  | .fetch addr length _ => (addr, length)
  | .signal _ => (0, 0)

/-- The fault record of a failed entry (TABLE 8-3). -/
def InboundEntry.faultRecord (e : InboundEntry) (halted : Bool) : FaultRecord :=
  { cause := .applyFault, peer := e.source, addr := e.range.1, length := e.range.2, halted := halted }

/-- The station controller and the containment unit at containment entry (R135): the station is CONTAINED, the flag is set with its cause,
and a HALTED CONTAIN is pending. A CONTAIN that was pending is replaced and its late sources are emptied (R137). -/
def State.setContained (s : State) (cause : FaultCause) (addr : Word) (length : Nat) : State :=
  { s with
    station := .contained
    contain :=
      { s.contain with
        flag := true
        cause := some cause
        pendingContain := some { mode := .halted, cause := cause, named := 0, addr := addr, length := length }
        late := 0 } }

/-- Containment entry (R135): the controller and the containment unit act, the engine stops, and the send queue and the fetch table fail
what they hold. -/
def State.enterContainment (s : State) (cause : FaultCause) (addr : Word) (length : Nat) : Effect :=
  ((s.setContained cause addr length).stopEngine.flushSends).andThen State.flushSlots

/-- Whether the pending CONTAIN is the frozen candidate of the round (R131). -/
def State.containFrozen (s : State) : Bool := s.span.candidate.any fun c => c.source == .contain

/-- The REPORTED CONTAIN after an apply fault of `source`: made when none is pending (R130); extended otherwise, with the source added to
the late sources as well while it is frozen (R131). A HALTED one does not meet this case and is left (log 18). -/
def ContainUnit.report (c : ContainUnit) (frozen : Bool) (source : Station) (addr : Word) (length : Nat) : ContainUnit :=
  match c.pendingContain with
  | none =>
    { c with
      pendingContain :=
        some { mode := .reported, cause := .applyFault, named := StationSet.single source, addr := addr, length := length } }
  | some p =>
    if p.mode = .reported then
      { c with
        pendingContain := some { p with named := StationSet.add p.named source, addr := addr, length := length }
        late := if frozen then StationSet.add c.late source else c.late }
    else c

/-- A fault record and LOCAL_FAULT for a failed entry (R130, R132 to R134, R143). -/
def State.recordFault (s : State) (e : InboundEntry) (halted : Bool) : Effect :=
  (s.addFault (e.faultRecord halted), containNotice .localFault e.source)

/-- An apply fault at the containment unit (R129). In OFFLINE the record and the notice, and under HALT the flag (R134); while CONTAINED,
or with the flag set, the record and the notice only (R133, R142; log 18 for the combinations that no run reaches); otherwise R132 under HALT and
R130 under REPORT. -/
def State.applyFault (s : State) (e : InboundEntry) : Effect :=
  if s.station = .offline then
    if s.policy = .halt ∧ !s.contain.flag then
      (s.recordFault e true).andThen fun s' =>
        quiet { s' with contain := { s'.contain with flag := true, cause := some .applyFault } }
    else s.recordFault e false
  else if s.station = .contained ∨ s.contain.flag then s.recordFault e false
  else if s.policy = .halt then
    (s.recordFault e true).andThen fun s' => s'.enterContainment .applyFault e.range.1 e.range.2
  else
    (s.recordFault e false).andThen fun s' =>
      quiet { s' with contain := s'.contain.report s'.containFrozen e.source e.range.1 e.range.2 }

/-- The fault record of an implication (TABLE 8-3). -/
def implicationRecord (sender : Station) (addr : Word) (length : Nat) (halted : Bool) : FaultRecord :=
  { cause := .implicated, peer := sender, addr := addr, length := length, halted := halted }

/-- Whether a CONTAIN that names this station makes it enter containment (R140 first row, R141). -/
def State.implicationHalts (s : State) : Bool := s.station == .active && s.policy == .halt && !s.contain.flag

/-- Whether a CONTAIN that names this station is recorded without containment: in LISTENING, and in ACTIVE under REPORT (R140). -/
def State.implicationRecorded (s : State) : Bool :=
  s.station == .listening || (s.station == .active && s.policy == .report)

/-- A CONTAIN that names this station (R140, R141): POST_LOST always; what else, by station state, policy and flag. -/
def State.implicated (s : State) (sender : Station) (addr : Word) (length : Nat) : Effect :=
  Effect.andThen (s, containNotice .postLost sender) fun s' =>
    if s'.implicationHalts then
      (s'.addFault (implicationRecord sender addr length true)).enterContainment .implicated addr length
    else if s'.implicationRecorded then quiet (s'.addFault (implicationRecord sender addr length false))
    else quiet s'

/-- Whether a CONTAIN's implicated set names this station. -/
def State.namedBy (s : State) (named : StationSet) : Bool := s.self?.any fun n => StationSet.has named n

/-- What the containment unit does with a good parcel (R9, R140). -/
def State.containConsumes (s : State) (sender : Station) : Option Body → Effect
  | some (.contain _ _ named addr length) => if s.namedBy named then s.implicated sender addr length else quiet s
  | _ => quiet s

/-- Two effects in the order a free choice gives: the first one first when `first` holds. -/
def eitherOrder (first : Bool) (f g : State → Effect) (s : State) : Effect :=
  if first then (f s).andThen g else (g s).andThen f

/-- A HALTED CONTAIN from D that closes D and makes this station enter containment in the same act (R67, R141). The reach table and the
containment unit act on it independently (R9, R67), so whether the send queue, the fetch table and the apply engine take the closing of D
or the containment entry first are three free choices (log 3). -/
def State.haltedBy (s : State) (d : Station) (room : Bool) (addr : Word) (length : Nat) : Effect :=
  let (laneFirst, s) := s.choose
  let (slotsFirst, s) := s.choose
  let (dropFirst, s) := s.choose
  let s := s.hear d room
  let s := s.setReach d { s.reachOf d with state := .contained, timer := .stopped }
  let s := (s.addFault (implicationRecord d addr length true)).setContained .implicated addr length
  let lanes := eitherOrder laneFirst (fun s => s.closeLane d .destContained) State.flushSends s
  let slots := lanes.andThen (eitherOrder slotsFirst (fun s => s.failSlotsFor d .destContained) State.flushSlots)
  let engine := slots.andThen (eitherOrder dropFirst (fun s => quiet (s.dropReturns d)) fun s => quiet s.stopEngine)
  engine.andThen fun s =>
    (s, { Handed.none with reach := [[notice .peerHalted d.val]], contain := [[notice .postLost d.val]] })

/-- Whether a good parcel from D is a HALTED CONTAIN that both closes D and makes this station enter containment. -/
def State.haltsBoth (s : State) (d : Station) : Option Body → Bool
  | some (.contain .halted _ named _ _) =>
    (s.reachOf d).state != .contained && (s.reachOf d).state != .self && s.namedBy named && s.implicationHalts
  | _ => false

/-- What the reach table and the containment unit do with a good parcel from D (R9). -/
def State.consume (s : State) (d : Station) (room : Bool) (body : Option Body) : Effect :=
  match s.haltsBoth d body, body with
  | true, some (.contain _ _ _ addr length) => s.haltedBy d room addr length
  | _, _ => (s.reachConsumes d room body).andThen fun s' => s'.containConsumes d body

/-- The implicated set of a HALTED CONTAIN at a freeze: the sources of every POST entry held in the inbound queue (R138). -/
def State.postSources (s : State) : StationSet :=
  s.inbound.foldl
    (fun set e =>
      match e.op with
      | .post .. => StationSet.add set e.source
      | _ => set)
    0

/-- The body of the pending CONTAIN at a freeze (R138, TABLE 8-2). -/
def State.containBody (s : State) (p : PendingContain) : Body :=
  .contain p.mode p.cause (if p.mode = .halted then s.postSources else p.named) p.addr p.length

/-- The pending CONTAIN once its frozen body of mode `mode` has been sent in a good parcel (R9, R131, R137): a HALTED one is no longer
pending; for a REPORTED one the late sources, if any, make a new one; a HALTED one that replaced it stays. Where none is pending, which no run
reaches, the late sources are emptied: DESIGN CHOICE (log 18, safe). -/
def ContainUnit.sent (c : ContainUnit) (mode : ContainMode) : ContainUnit :=
  match c.pendingContain with
  | none => { c with late := 0 }
  | some p =>
    if p.mode = .halted ∧ mode = .reported then { c with late := 0 }
    else if p.mode = .reported ∧ c.late ≠ 0 then { c with pendingContain := some { p with named := c.late }, late := 0 }
    else { c with pendingContain := none, late := 0 }

end Sys2Proof.Machine
end

