-- ==== Sys2Proof/Machine/MemoryEnds.lean ====
section
/-! DEFINITION. The endings of accesses to node memory (R84, R100, R101, R114). An ending is that of the access in flight; the ending of an
access that is not in flight does not arise (log 4). A station held in reset has no access in flight but an abandoned one (R151). -/

namespace Sys2Proof.Machine

/-- The apply engine acts on the ending of the write of its head `e` (R100, R104). A head that is no POST, which no run reaches, is treated as one:
DESIGN CHOICE (log 18, safe). -/
def State.postEnds (s : State) (e : InboundEntry) : AccessEnd → Effect
  | .ok => s.dropHead.engineGoesOn
  | .error =>
    if s.station = .contained ∨ s.policy = .halt then { s with engine := .stopped }.applyFault e
    else (s.applyFault e).andThen fun s' => s'.dropHead.engineGoesOn

/-- APPLY_WRITE_END (R100). The path falls FREE and starts a waiting request (R112), and the engine acts on the ending. -/
def execApplyWriteEnd (ending : AccessEnd) (s : State) : Host.Outcome State Fault Refusal :=
  .next <|
    match s.held, s.path.state, s.inbound.head? with
    | false, .busy .apply (.write ..), some e => (s.pathFallsFree.postEnds e ending).done
    | _, _, _ => s

/-- The result a read hands to the return list: the words of the access, or READ_ERROR (R101). -/
def readResult (length : Nat) : ReadEnd → FetchResult
  | .ok words => .ok (words.toList.take length)
  | .error => .readError

/-- The apply engine acts on the ending of the read of its head: the entry is removed and its RETURN joins the return list (R101, R104). A head that
is no FETCH, which no run reaches, is removed without a RETURN: DESIGN CHOICE (log 18, safe). -/
def State.fetchEnds (s : State) (e : InboundEntry) (ending : ReadEnd) : Effect :=
  match e.op with
  | .fetch _ length tag => (s.dropHead.joinReturn e.source tag (readResult length ending)).engineGoesOn
  | _ => s.dropHead.engineGoesOn

/-- APPLY_READ_END (R101). -/
def execApplyReadEnd (ending : ReadEnd) (s : State) : Host.Outcome State Fault Refusal :=
  .next <|
    match s.held, s.path.state, s.inbound.head? with
    | false, .busy .apply (.read ..), some e => (s.pathFallsFree.fetchEnds e ending).done
    | _, _, _ => s

/-- The status of a fetch whose landing has ended (R84). -/
def landStatus : AccessEnd → Status
  | .ok => .fetched
  | .error => .landError

/-- LANDING_END (R84): the slot is FREE with its record, in every station state; the slot of a landing in flight that is not LANDING, which no run
reaches, as well: DESIGN CHOICE (log 18, safe). -/
def execLandingEnd (ending : AccessEnd) (s : State) : Host.Outcome State Fault Refusal :=
  .next <|
    match s.held, s.path.state with
    | false, .busy (.landing t) _ => (s.pathFallsFree.endFetch t (landStatus ending)).done
    | _, _ => s

/-- ABANDONED_ACCESS_END (R114): the path falls FREE, held in reset or not, and the ending is handed to no block. -/
def execAbandonedAccessEnd (_ending : AccessEnd) (s : State) : Host.Outcome State Fault Refusal :=
  .next <|
    match s.path.state with
    | .abandoned _ => s.pathFallsFree
    | _ => s

end Sys2Proof.Machine
end

