-- ==== Sys2Proof/Machine/Settle.lean ====
section
/-! DEFINITION. Settlement at the sender (R44 to R55 for the in-flight entry, R108 to R110 for the in-flight RETURN) and the release of a
candidate (R6, R11). -/

namespace Sys2Proof.Machine

/-- The in-flight entry leaves taken: a FETCH passes to the slot its tag names, a POST or SIGNAL leaves DONE if its report flag is set
(R40, R44, R78). A FETCH without a tag, which no run reaches, leaves without a slot: DESIGN CHOICE (log 18, safe). -/
def State.entryTaken (s : State) (e : SendEntry) : Effect :=
  match e.op with
  | .fetch _ length landing (some tag) => quiet (s.removeInFlight.allocate tag e.dest landing length e.cookie)
  | .fetch _ _ _ none => quiet s.removeInFlight
  | _ => (s.removeInFlight, { Handed.none with sendQueue := if e.report then [[e.record .done]] else [] })

/-- The in-flight entry stays with its full count raised (R45). -/
def State.raiseFull (s : State) : State :=
  { s with sendQueue := s.sendQueue.map fun e => if e.inFlight then { e.release with fullCount := e.fullCount + 1 } else e }

/-- The in-flight entry `e` is settled outside containment (TABLE 3-2, R44 to R50). The reach booking of the answer comes first (R63). -/
def State.settleEntry (s : State) (e : SendEntry) : AnswerOutcome → Effect
  | .good .taken => (s.bookReply e.dest).entryTaken e
  | .good .full =>
    if e.fullCount + 1 < s.patience then quiet (s.raiseFull.replyBusy e.dest)
    else (s.bookReply e.dest).closeLane e.dest .fullExhausted
  | .good .outside => (s.bookReply e.dest).closeLane e.dest .outsideWindow
  | .good .refused => (s.closeLane e.dest .destContained).andThen fun s' => s'.replyRefused e.dest
  | .good .stale => quiet (s.bookReply e.dest).releaseInFlight
  | .void | .silent => (s.noReply e.dest).andThen fun s' => quiet s'.releaseInFlight

/-- The reach table's part of an answer read while this station is CONTAINED; a FULL is "at patience" (R55). -/
def State.bookAnswer (s : State) (d : Station) : AnswerOutcome → Effect
  | .good .refused => s.replyRefused d
  | .good .taken | .good .full | .good .outside | .good .stale => quiet (s.bookReply d)
  | .void | .silent => s.noReply d

/-- The in-flight entry `e` is settled while the station is CONTAINED (R55). -/
def State.settleContained (s : State) (e : SendEntry) (o : AnswerOutcome) : Effect :=
  (if o = .good .taken ∧ e.kind ≠ .fetch then s.entryTaken e else s.failInFlight).andThen fun s' =>
    s'.bookAnswer e.dest o

/-- The RETURN in flight to `d` is settled (R108 to R110). At a no-reply it leaves where `d` is UNREACHABLE after it; that it leaves too where `d`
was so before, which no run reaches, is the model's DESIGN CHOICE (log 18, safe). -/
def State.settleReturn (s : State) (d : Station) : AnswerOutcome → Effect
  | .good .taken => quiet (s.bookReply d).removeReturn
  | .good .stale | .good .full | .good .outside =>
    ((s.bookReply d).removeReturn, { Handed.none with returns := [[notice .returnStale d.val]] })
  | .good .refused => Effect.andThen (quiet s.removeReturn) fun s' => s'.replyRefused d
  | .void | .silent =>
    (s.noReply d).andThen fun s' =>
      quiet (if (s'.reachOf d).state = .unreachable then s'.removeReturn else s'.releaseReturn)

/-- The source of the frozen candidate, if there is one. -/
def State.source? (s : State) : Option Source := s.span.candidate.map Candidate.source

/-- The sender's part of an answer close: the in-flight entry or the in-flight RETURN is settled (R11, R14). A source without a member in flight,
which no run reaches, settles nothing: DESIGN CHOICE (log 18, safe). -/
def State.settleCandidate (s : State) (o : AnswerOutcome) : Effect :=
  match s.source? with
  | some .sendQueue =>
    match s.inFlightEntry with
    | some e => if s.station = .contained then s.settleContained e o else s.settleEntry e o
    | none => quiet s
  | some .returnList =>
    match s.inFlightReturn with
    | some r => s.settleReturn r.requester o
    | none => quiet s
  | _ => quiet s

/-- The candidate is discarded by the span unit. -/
def State.clearCandidate (s : State) : State := { s with span := { s.span with candidate := none } }

/-- A candidate that is not sent in a good parcel is released (R6, R11, R43, R55, R107, R131): an entry stays, or leaves with
LOCAL_CONTAINED while the station is CONTAINED; a RETURN is an ordinary member again; a CONTAIN or HELLO stays pending, and the late
sources are emptied. -/
def State.releaseCandidate (s : State) : Effect :=
  match s.source? with
  | some .sendQueue => if s.station = .contained then s.clearCandidate.failInFlight else quiet s.clearCandidate.releaseInFlight
  | some .returnList => quiet s.clearCandidate.releaseReturn
  | some .contain => quiet { s.clearCandidate with contain := { s.contain with late := 0 } }
  | some .hello | none => quiet s.clearCandidate

/-- A broadcast candidate that was sent in a good parcel is no longer pending (R9, R131, R159). A CONTAIN's candidate with another body, which no run
reaches, leaves it pending: DESIGN CHOICE (log 18, safe). -/
def State.broadcastSent (s : State) : State :=
  match s.span.candidate with
  | some { source := .hello, .. } => { s.clearCandidate with helloPending := false }
  | some { source := .contain, body := .contain mode _ _ _ _, .. } => { s.clearCandidate with contain := s.contain.sent mode }
  | _ => s

end Sys2Proof.Machine
end

