-- ==== Sys2Proof/Machine/Turn.lean ====
section
/-! DEFINITION. The turn unit (chapter 2): the grant, the grant update and adoption. -/

namespace Sys2Proof.Machine

/-- The owner computed at call close, none when nobody called (R24, R25, R26). -/
def grant (t : TurnRecord) (picture : StationSet) : Option Station :=
  if t.settle then search 0 picture
  else if t.stamp.lo && (picture &&& ~~~t.stamp.high) != 0 then
    search (t.stamp.lp + 1) (picture &&& ~~~t.stamp.high)
  else if (picture &&& t.stamp.high) != 0 then search (t.stamp.hp + 1) (picture &&& t.stamp.high)
  else search (t.stamp.lp + 1) (picture &&& ~~~t.stamp.high)

/-- The grant update for the station that sent a good parcel with this stamp (R27 for a HIGH sender, R28 for a LOW one). -/
def grantUpdate (stamp : Stamp) (sender : Station) : Stamp :=
  if StationSet.has stamp.high sender then
    { stamp with hp := sender, lo := stamp.lo || decide (sender ≤ stamp.hp) }
  else { stamp with lp := sender, lo := false }

/-- The class step of a HELLO; other parcels have none (R29 step 5, R31). -/
def classStep (stamp : Stamp) (sender : Station) : Option StationClass → Stamp
  | some cls => { stamp with high := StationSet.put stamp.high sender (cls == .high) }
  | none => stamp

/-- Adoption of a good parcel's stamp; `hello` is the class a well-formed HELLO carries (R29 to R31, R184). -/
def adopt (t : TurnRecord) (stamp : Stamp) (sender : Station) (hello : Option StationClass) : TurnRecord :=
  { stamp := classStep (grantUpdate stamp sender) sender hello
    settle := false
    repair := if t.stamp = stamp then t.repair else bump t.repair }

/-- VOID and ABSENT set the settle flag and nothing else of the record (R33). -/
def TurnRecord.setSettle (t : TurnRecord) : TurnRecord := { t with settle := true }

end Sys2Proof.Machine
end

