-- ==== Sys2Proof/Machine/Span.lean ====
section
/-! DEFINITION. The span unit (chapter 1) and the join watch (chapter 9): the meanings of the six round events. -/

namespace Sys2Proof.Machine

/-! ## Shared pieces -/

/-- The span unit with another phase. -/
def State.withPhase (s : State) (p : Phase) : State := { s with span := { s.span with phase := p } }

/-- The round ends: no phase, no call mark and no candidate (R14, R21; log 15 for the call mark). -/
def State.endRound (s : State) : State :=
  { s with span := { s.span with phase := .none, callMark := false, candidate := none } }

/-- A counted round ends: in LISTENING the join-watch count rises, and at 4 the station is ACTIVE with a HELLO pending (R157, R158). -/
def State.countRound (s : State) : State :=
  if s.station = .listening then
    if Config.watchLength ≤ s.joinWatch + 1 then
      { s with joinWatch := Config.watchLength, station := .active, helloPending := true }
    else { s with joinWatch := s.joinWatch + 1 }
  else s

/-- The frozen body of a send-queue entry (R3). The tag is the one the freeze writes (R42). -/
def SendEntry.body (e : SendEntry) (tag : SlotNo) : Body :=
  match e.op with
  | .post addr data => .post addr data
  | .fetch addr length _ _ => .fetch addr length tag
  | .signal n => .signal n

/-- A station number as a destination field. -/
def destField (d : Station) : Fin 16 := ⟨d.val, by omega⟩

/-- The destination field ALL (00 section 0.6). -/
def destAll : Fin 16 := 15

/-! ## ROUND_MARK -/

/-- What the transmit selector offers (R4): the pending CONTAIN, the pending HELLO, the oldest RETURN to a requester that is neither
UNREACHABLE nor CONTAINED, the oldest eligible entry. In CONTAINED only the first and the third; with calls barred nothing. -/
inductive Offer where
  | contain (p : PendingContain)
  | hello
  | ret (place : Nat)
  | entry (place : Nat)
  deriving DecidableEq, Repr

/-- The transmit selector's choice for the round (R4). It keeps nothing between rounds. -/
def State.offer (s : State) : Option Offer :=
  if s.span.callBar then none
  else if s.station = .active ∨ s.station = .contained then
    match s.contain.pendingContain with
    | some p => some (.contain p)
    | none =>
      if s.helloPending ∧ s.station = .active then some .hello
      else
        match s.oldestReturn with
        | some i => some (.ret i)
        | none => if s.station = .active then s.oldestEligible.map .entry else none
  else none

/-- The candidate is frozen and the call mark set (R3). -/
def State.call (s : State) (c : Candidate) : State :=
  { s with span := { s.span with phase := .calling, callMark := true, candidate := some c } }

/-- The round mark without a candidate: the call mark stays clear (R3). -/
def State.listen (s : State) : State := s.withPhase .calling

/-- The freeze of what the selector offered, with the in-flight mark and the tag it writes (R3, R42, R107, R138, R159). -/
def State.freeze (s : State) : Option Offer → State
  | none => s.listen
  | some (.contain p) => s.call { source := .contain, dest := destAll, body := s.containBody p }
  | some .hello => s.call { source := .hello, dest := destAll, body := .hello s.cls s.policy }
  | some (.ret i) =>
    match s.returns[i]? with
    | none => s.listen
    | some r =>
      { s with returns := s.returns.modify i fun r => { r with inFlight := true } }.call
        { source := .returnList, dest := destField r.requester, body := .ret ⟨r.tag.val, by omega⟩ r.result }
  | some (.entry i) =>
    match s.sendQueue[i]? with
    | none => s.listen
    | some e =>
      { s with sendQueue := s.sendQueue.modify i fun e => e.freeze s.freeSlot? }.call
        { source := .sendQueue, dest := destField e.dest, body := e.body (s.freeSlot?.getD 0) }

/-- ROUND_MARK (R2, R3): a span unit that takes part and has no round in progress opens one; in ACTIVE and CONTAINED it asks the selector,
in LISTENING it does not. A mark while a round is in progress does not arise (log 4). -/
def execRoundMark (s : State) : Host.Outcome State Fault Refusal :=
  .next (if s.takesPart && s.span.phase == .none then s.freeze s.offer else s)

/-! ## CALL_CLOSE -/

/-- The call picture read: the call marks seen on the line, this station's own among them (R1, R6, log 13). -/
def State.pictureRead (s : State) (picture : StationSet) : StationSet :=
  if s.span.callMark then s.self?.elim picture (StationSet.add picture) else picture

/-- Whether this station owns the round: it called, and the owner it computes is its own number (R6, R26). -/
def State.ownsRound (s : State) (picture : StationSet) : Bool :=
  s.span.callMark && (grant s.turn picture).isSome && grant s.turn picture == s.self?

/-- CALL_CLOSE (R6): the picture is read and the owner computed; a caller that is not the owner releases its candidate at once. The settle
flag is read for R18. Outside the calling phase the event is not seen (R2, log 4). -/
def execCallClose (picture : StationSet) (s : State) : Host.Outcome State Fault Refusal :=
  .next <|
    if s.takesPart && s.span.phase == .calling then
      let p := s.pictureRead picture
      let s' := s.withPhase (.closed p (s.ownsRound p) s.turn.settle)
      if s.ownsRound p then s' else s'.releaseCandidate.done
    else s

/-! ## PARCEL_WINDOW -/

/-- The words this station transmits: the common header with the stamp and room flag as they stand, and the frozen body (R7). -/
def State.transmission (s : State) (c : Candidate) : ParcelWords :=
  let h :=
    headerWords
      { kind := c.body.kindCode, sender := s.strap.toNat, dest := c.dest.val, room := s.roomFlag, lo := s.turn.stamp.lo
        hp := s.turn.stamp.hp.val, lp := s.turn.stamp.lp.val, high := s.turn.stamp.high }
  { header0 := h.1, header1 := h.2, body := bodyWords c.body }

/-- PARCEL_WINDOW (R7): after call close with callers, the owner transmits its frozen candidate and every other station receives. An empty
picture has no parcel window (R6). An owner without a candidate, which no run reaches, receives: DESIGN CHOICE (log 18, safe). -/
def execParcelWindow (s : State) : Host.Outcome State Fault Refusal :=
  .next <|
    match s.takesPart, s.span.phase with
    | true, .closed picture owned settle =>
      if picture = 0 then s
      else s.withPhase (.parcel settle (if owned then s.span.candidate.map s.transmission else none))
    | _, _ => s

/-! ## PARCEL_OUTCOME -/

/-- WENT_OFFLINE, which TABLE 10-3 gives to the span unit, with its cause (R20, R161). At the VOID outcome of a fourth settle collision that also
takes the void-run count from 7 to 8, SPAN_UNSTEADY is handed on too, and no rule says which of the two notices of this one block comes
first: DESIGN CHOICE, WENT_OFFLINE is handed on beside the span unit's stream, so that a free choice gives their order (log 22, safe). -/
def wentOffline : Handed := { Handed.none with controller := [[notice .wentOffline duplicateNumber]] }

/-- The station enters OFFLINE during a round: it takes no further part, and the in-flight entry or RETURN is released unsettled
(R2, R20, R43, R56, R161). -/
def State.goOffline (s : State) : State := { s.releaseInFlight.releaseReturn.endRound with station := .offline }

/-- Acting on a duplicate number (R20): OFFLINE from LISTENING and ACTIVE; in CONTAINED the calls and answers are barred. -/
def State.duplicate (s : State) : Effect :=
  if s.station = .contained then ({ s with span := { s.span with callBar := true } }, wentOffline)
  else (s.goOffline, wentOffline)

/-- The void-run count on a VOID or ABSENT outcome, with SPAN_UNSTEADY at the rise from 7 to 8 (R17). -/
def State.voidRound (s : State) : Effect :=
  ({ s with
      span := { s.span with voidRun := bump s.span.voidRun }
      turn := s.turn.setSettle },
    if s.span.voidRun + 1 = Config.unsteadyRun then
      { Handed.none with span := [[notice .spanUnsteady Config.unsteadyRun]] }
    else .none)

/-- A settle collision: this station transmitted as owner with the settle flag set at call close, and the outcome is VOID. At 4 it acts on
a duplicate number (R18, R20). -/
def State.collide (s : State) : Effect :=
  let n := min (s.span.settleCollision + 1) Config.collisionLimit
  let s' : State := { s with span := { s.span with settleCollision := n } }
  if n = Config.collisionLimit then s'.duplicate else quiet s'

/-- A VOID or ABSENT outcome (R8): the turn record and the void-run count act, a candidate that was transmitted is released (R11), the
settle collision is counted, and the round ends (R8). -/
def State.garbledRound (s : State) (collision : Bool) : Effect :=
  ((s.voidRound.andThen State.releaseCandidate).andThen fun s' => if collision then s'.collide else quiet s').andThen
    fun s' => quiet s'.endRound

/-- A GOOD outcome sets both counts of the span unit to 0 (R17, R18). -/
def State.goodRound (s : State) : State :=
  { s with span := { s.span with voidRun := 0, settleCollision := 0 } }

/-- The class a well-formed HELLO carries (R31). -/
def helloClass : Option Body → Option StationClass
  | some (.hello cls _) => some cls
  | _ => none

/-- Whether an answer window follows a good parcel, by kind and destination (R10, R184). -/
def Header.answered (h : Header) : Bool := addressedKind h.kind && h.dest < 12 && h.dest != h.sender

/-- The parcel this station is asked to answer: one that another station addressed to it and that is not malformed (R12, R184). -/
def State.askFor (s : State) (own : Bool) (h : Header) (sender : Station) (body : Option Body) : Option (Station × Body) :=
  if !own && h.dest == s.strap.toNat then body.map fun b => (sender, b) else none

/-- After a good parcel: the answer window of a parcel addressed to a station (R12), or the end of a counted round (R1, R157), at which no
candidate stays frozen (R3, R43). -/
def State.afterParcel (s : State) (answered : Bool) (ask : Option (Station × Body)) : Effect :=
  if answered then quiet (s.withPhase (.answer ask none))
  else s.releaseCandidate.andThen fun s' => quiet s'.endRound.countRound

/-- A GOOD outcome (R9, R10, R19, R184, R185). `own` says that this station transmitted. A sender or pointer field that names no station
ends the round with nothing consumed; this station's own number in a parcel it did not send is a duplicate number; otherwise the turn
record adopts, the reach table and the containment unit consume, and a broadcast of this station's own is no longer pending. -/
def State.goodParcel (s : State) (own : Bool) (w : ParcelWords) : Effect :=
  let h := readHeader w.header0 w.header1
  let body := readBody h.kind w.body
  let s := s.goodRound
  match station? h.sender, h.stamp? with
  | some sender, some stamp =>
    if s.isSelf sender && !own then
      s.duplicate.andThen fun s' => if s'.station = .offline then quiet s' else s'.afterParcel h.answered none
    else
      let s : State := { s with turn := adopt s.turn stamp sender (helloClass body) }
      (s.consume sender h.room body).andThen fun s' =>
        s'.broadcastSent.afterParcel h.answered (s'.askFor own h sender body)
  | _, _ => s.afterParcel false none

/-- The parcel outcome of a round with callers (R8): GOOD, VOID or ABSENT by what the parcel window held. A parcel of this station's own is
the one it transmitted (R1, R8, log 12). -/
def State.parcelOutcome (s : State) (settle : Bool) (sent : Option ParcelWords) : LineReport → Effect
  | .empty => s.garbledRound false
  | .garbled => s.garbledRound (sent.isSome && settle)
  | .intact h0 h1 body => s.goodParcel sent.isSome (sent.getD { header0 := h0, header1 := h1, body := body })

/-- PARCEL_OUTCOME (R8). With an empty call picture the outcome is IDLE, which counts for the join watch only. An owner has its parcel window
before its outcome; another station's outcome is taken whether or not the opening of the window was given (log 4). -/
def execParcelOutcome (report : LineReport) (s : State) : Host.Outcome State Fault Refusal :=
  .next <|
    match s.takesPart, s.span.phase with
    | true, .closed picture owned settle =>
      if picture = 0 then s.endRound.countRound
      else if owned then s
      else (s.parcelOutcome settle none report).done
    | true, .parcel settle sent => (s.parcelOutcome settle sent report).done
    | _, _ => s

/-! ## ANSWER_WINDOW -/

/-- The answer the consuming block gives to a parcel addressed to this station, and what it holds for it (R12, R79, R80, R95). -/
def State.answerFor (s : State) (source : Station) : Body → Option (AnswerCode × State)
  | .ret tag result => some (s.answerReturn source tag result)
  | body => (body.inbound?).map (s.answerInbound source)

/-- Whether this station drives an answer when it is addressed: it is ACTIVE or CONTAINED, and its answers are not barred (R12, R20). -/
def State.answers (s : State) : Bool := (s.station == .active || s.station == .contained) && !s.span.callBar

/-- ANSWER_WINDOW (R12): the addressed station, if ACTIVE or CONTAINED and not barred (R20), asks the consuming block for a code and
drives it; any other station drives nothing. -/
def execAnswerWindow (s : State) : Host.Outcome State Fault Refusal :=
  .next <|
    match s.takesPart, s.span.phase with
    | true, .answer (some (source, body)) _ =>
      if s.answers then
        match s.answerFor source body with
        | some (code, s') => s'.withPhase (.answer none (some code))
        | none => s.withPhase (.answer none none)
      else s.withPhase (.answer none none)
    | _, _ => s

/-! ## ANSWER_CLOSE -/

/-- The addressed station's part of an answer close: a provisional entry is committed or discarded (R98) and the engine may take it (R99);
a HOLDING slot is decided (R81, R82, R89). -/
def State.settleHolder (s : State) (taken : Bool) : Effect :=
  ((s.settleProvisional taken).wakeEngine).andThen fun s' =>
    match s'.holdingSlot? with
    | some t => s'.decideSlot t taken
    | none => quiet s'

/-- ANSWER_CLOSE (R13, R14): the outcome goes to the sender's settling block and to the addressed station's holder, and the round ends.
The window of a station that has still to be asked for the answer it drives has not opened, and does not close (log 4). -/
def execAnswerClose (report : AnswerReport) (s : State) : Host.Outcome State Fault Refusal :=
  .next <|
    match s.takesPart, s.span.phase with
    | true, .answer ask _ =>
      if ask.isSome && s.answers then s
      else
        let o := readAnswer report
        (((s.settleCandidate o).andThen fun s' => s'.settleHolder (o == .good .taken)).andThen
          fun s' => quiet s'.endRound.countRound).done
    | _, _ => s

end Sys2Proof.Machine
end

