-- ==== Sys2Proof/Machine/Reset.lean ====
section
/-! DEFINITION. The reset pin (R151, R152) and the act of RESTART (R163, R164). -/

namespace Sys2Proof.Machine

/-- HARDWARE_RESET_ASSERT (R151): the station is held in reset. The round in progress is left at once with its candidate (R5, R15, R16), and
an access in flight is abandoned, the waiting requests are withdrawn and the engine has no access (R103, R114). The other blocks take their
values at the release. -/
def execHardwareResetAssert (s : State) : Host.Outcome State Fault Refusal :=
  .next
    { s.releaseInFlight.releaseReturn.endRound with
      held := true
      engine := .idle
      path := if s.held then s.path else s.path.abandon }

/-- HARDWARE_RESET_RELEASE (R151, R152): every block takes its hardware-reset values, the straps are sampled and the station is UNSTARTED.
The path stays ABANDONED while an abandoned access is in flight (R114). -/
def execHardwareResetRelease (straps : BitVec 4) (s : State) : Host.Outcome State Fault Refusal :=
  .next
    { State.resetWith straps with
      path := { s.path.abandon with lastServed := .landing }
      choices := s.choices
      pending := s.pending }

/-- What RESTART does, block by block (TABLE 9-2, R164). -/
def State.restarted (s : State) : State :=
  { s with
    station := .listening
    joinWatch := 0
    helloPending := false
    span := .reset
    turn := .reset
    sendQueue := []
    reach := reachReset s.strap
    slots := slotsReset
    inbound := []
    engine := .idle
    returns := []
    path := { s.path.abandon with lastServed := .landing }
    signals := s.clearEpisodes
    contain := { s.contain with flag := false, cause := none, pendingContain := none, late := 0 }
    completions := [] }

end Sys2Proof.Machine
end

