-- ==== Sys2Proof/WellFormed.lean ====
section
/-! DEFINITION. Which commands the environment can send. The operand types carry every range but one: the offset of a window word. -/

namespace Sys2Proof

/-- A window offset names a word of the window: it is a multiple of 4 from 0x000 to 0x0FC (11 section 11.5). The byte range is the
type's. -/
def wordOffset (offset : BitVec 8) : Bool := offset.toNat % 4 == 0

/-- A command is well-formed when the offset of a REGISTER_WRITE names a word; every other operand is in range by its type. -/
def Instr.wellFormed : Instr → Bool
  | .registerWrite offset _ => wordOffset offset
  | .hardwareResetAssert | .hardwareResetRelease _ | .roundMark | .callClose _ | .parcelWindow | .parcelOutcome _
  | .answerWindow | .answerClose _ | .retryTimerExpiry _ | .fetchTimerExpiry _ | .applyWriteEnd _ | .applyReadEnd _
  | .landingEnd _ | .abandonedAccessEnd _ | .post | .fetch | .signal | .undefinedKind | .start | .restart | .setMask
  | .ackSignal | .readFault | .clearFaults | .readReach | .take => true

end Sys2Proof
end

