-- ==== Sys2Proof/Machine/NodePort.lean ====
section
/-! DEFINITION. The node port (chapter 10): submissions, TAKE and writes to the slave window. A submission command names the kind it submits,
so header word 0's kind field is taken as that kind's code (log 7); a write to SUBMIT is judged by that field (R169). A station held in
reset ignores every write and returns zero to every read (R151). -/

namespace Sys2Proof.Machine

/-- The result code is placed in RESULT (R168). -/
def State.answer (s : State) (r : Result) : State := { s with port := { s.port with result := r } }

/-- ACCEPTED with values in the RESULT VIEW words (R168). -/
def State.answerView (s : State) (view : Vector Word 4) : State :=
  { s with port := { s.port with result := .accepted, resultView := view } }

/-- A submission at a station that is not held in reset (R151). -/
def State.submission (s : State) (f : State → State) : State := if s.held then s else f s

/-! ## Queued requests (R170, R171) -/

/-- Check 1 of R170: the code of a station state that admits no queued request. -/
def State.refusedState (s : State) : Option Result :=
  match s.station with
  | .unstarted => some .notStarted
  | .contained => some .contained
  | .offline => some .offline
  | .listening | .active => none

/-- Check 3 of R170: the destination, when it names a station other than this one. -/
def State.destination (s : State) : Option Station :=
  match station? s.port.dest with
  | some d => if s.isSelf d then none else some d
  | none => none

/-- Checks 4 to 6 of R170, on the fields of the request. -/
def NodePort.fieldCheck (p : NodePort) : RequestKind → Option Result
  | .post =>
    if !validLength p.length then some .badLength
    else if !rangeFits p.remote p.length then some .badAddress
    else none
  | .fetch =>
    if !validLength p.length then some .badLength
    else if !rangeFits p.remote p.length || !rangeFits p.landing p.length then some .badAddress
    else none
  | .signal => if p.signalNo < 16 then none else some .badSignal

/-- Checks 7 to 9 of R170, on the station as it stands. -/
def State.roomCheck (s : State) (d : Station) : Option Result :=
  if (s.reachOf d).state = .unreachable then some .destUnreachable
  else if (s.reachOf d).state = .contained then some .destContained
  else if Config.sendCapacity ≤ s.sendQueue.length then some .queueFull
  else if Config.budgetLimit ≤ s.budgetSum then some .budgetExhausted
  else none

/-- The operation of the entry made from the composed request (R39, R187). -/
def NodePort.sendOp (p : NodePort) : RequestKind → SendOp
  | .post => .post p.remote (p.words p.length)
  | .fetch => .fetch p.remote p.length p.landing none
  | .signal => .signal (Fin.ofNat 16 p.signalNo)

/-- The send-queue entry made from the composed request (R39). The report flag of a FETCH is not kept. -/
def NodePort.entry (p : NodePort) (k : RequestKind) (d : Station) : SendEntry :=
  { op := p.sendOp k, dest := d, cookie := p.cookie, report := k != .fetch && p.reportFlag, fullCount := 0, inFlight := false }

/-- A queued request is judged by the checks of R170 in order; admitted, it joins the send queue at the tail (R171). -/
def State.submitQueued (s : State) (k : RequestKind) : State :=
  match s.refusedState with
  | some r => s.answer r
  | none =>
    match s.destination with
    | none => s.answer .badDest
    | some d =>
      match s.port.fieldCheck k with
      | some r => s.answer r
      | none =>
        match s.roomCheck d with
        | some r => s.answer r
        | none => { s with sendQueue := s.sendQueue ++ [s.port.entry k d] }.answer .accepted

/-- POST (R170, R171). -/
def execPost (s : State) : Host.Outcome State Fault Refusal := .next (s.submission fun s => s.submitQueued .post)

/-- FETCH (R170, R171). -/
def execFetch (s : State) : Host.Outcome State Fault Refusal := .next (s.submission fun s => s.submitQueued .fetch)

/-- SIGNAL (R170, R171). -/
def execSignal (s : State) : Host.Outcome State Fault Refusal := .next (s.submission fun s => s.submitQueued .signal)

/-- A submission of an undefined kind is refused with the code of the station state, or with BAD_KIND (R169, R170 checks 1 and 2). -/
def State.submitUndefined (s : State) : State := s.answer (s.refusedState.getD .badKind)

/-- UNDEFINED_KIND (R169). -/
def execUndefinedKind (s : State) : Host.Outcome State Fault Refusal := .next (s.submission State.submitUndefined)

/-! ## Immediate requests (R173) -/

/-- START is accepted: the configuration is taken, the enables are set from the initial mask, and the station is LISTENING (R155, R126). -/
def State.takeConfig (s : State) (c : StationConfig) : State :=
  ({ s with config := some c, station := .listening, joinWatch := 0 }.initMask c.signalMask).answer .accepted

/-- START, first failing check first (R154). -/
def State.submitStart (s : State) : State :=
  if s.station ≠ .unstarted then s.answer .alreadyStarted
  else if 12 ≤ s.strap.toNat then s.answer .badStrap
  else
    match s.port.startConfig with
    | none => s.answer .badCode
    | some c => if windowFits c then s.takeConfig c else s.answer .badWindow

/-- START (R154, R155). -/
def execStart (s : State) : Host.Outcome State Fault Refusal := .next (s.submission State.submitStart)

/-- An immediate request other than START, which UNSTARTED refuses (R153, R173). -/
def State.whenStarted (s : State) (f : State → State) : State :=
  if s.station = .unstarted then s.answer .notStarted else f s

/-- RESTART (R163). -/
def State.submitRestart (s : State) : State := s.whenStarted fun s => s.restarted.answer .accepted

/-- RESTART (R163, R164). -/
def execRestart (s : State) : Host.Outcome State Fault Refusal := .next (s.submission State.submitRestart)

/-- SET_MASK: the enables are replaced, the notices written and the mask now in force shown (R121). -/
def State.submitSetMask (s : State) : State :=
  s.whenStarted fun s =>
    let s' := (s.applyMask s.port.mask).done
    s'.answerView (viewWords (pack [(s'.enableMask, 0)]) 0)

/-- SET_MASK (R121). -/
def execSetMask (s : State) : Host.Outcome State Fault Refusal := .next (s.submission State.submitSetMask)

/-- The episode of signal `n` is closed, with its raise count and first source returned (R123, TABLE 11-9). A missing first source, which no run
reaches, is returned as 0: DESIGN CHOICE (log 18, safe). -/
def State.closeEpisode (s : State) (n : SignalNo) : State :=
  let e := s.signalOf n
  (s.setSignal n (idleSignal e.enabled)).answerView
    (viewWords (pack [(e.count, 0), (e.first.elim 0 (·.val), 8)]) 0)

/-- ACK_SIGNAL (R122, R123). -/
def State.submitAckSignal (s : State) : State :=
  s.whenStarted fun s =>
    if s.ackCheck s.port.signalNo = .accepted then s.closeEpisode (Fin.ofNat 16 s.port.signalNo)
    else s.answer (s.ackCheck s.port.signalNo)

/-- ACK_SIGNAL (R122, R123). -/
def execAckSignal (s : State) : Host.Outcome State Fault Refusal := .next (s.submission State.submitAckSignal)

/-- READ_FAULT (R146). -/
def State.submitReadFault (s : State) : State :=
  s.whenStarted fun s =>
    match s.contain.log[s.port.faultIndex]? with
    | some r => s.answerView r.words
    | none => s.answer .noRecord

/-- READ_FAULT (R146). -/
def execReadFault (s : State) : Host.Outcome State Fault Refusal := .next (s.submission State.submitReadFault)

/-- CLEAR_FAULTS (R147). -/
def State.submitClearFaults (s : State) : State :=
  s.whenStarted fun s =>
    if s.station = .contained then s.answer .logHeld
    else { s with contain := { s.contain with log := [], overflow := 0 } }.answer .accepted

/-- CLEAR_FAULTS (R147). -/
def execClearFaults (s : State) : Host.Outcome State Fault Refusal := .next (s.submission State.submitClearFaults)

/-- READ_REACH (R74). -/
def State.submitReadReach (s : State) : State :=
  s.whenStarted fun s =>
    match station? s.port.stationNo with
    | some d => s.answerView (s.reachOf d).words
    | none => s.answer .badDest

/-- READ_REACH (R74). -/
def execReadReach (s : State) : Host.Outcome State Fault Refusal := .next (s.submission State.submitReadReach)

/-! ## TAKE and REGISTER_WRITE -/

/-- The word a read of TAKE returned (R179, TABLE 11-6; log 11). -/
def State.returned (s : State) (w : Word) : State := { s with port := { s.port with takeWord := w } }

/-- Popping a signal notice hands the signal table its reading (R119). -/
def State.readingOf (s : State) : Completion → State
  | .signal n _ => s.readNotice n
  | _ => s

/-- The oldest record is popped into the VIEW words, or the read returns EMPTY (R179). -/
def State.takeRecord (s : State) : State :=
  match s.completions with
  | [] => s.returned 0
  | c :: rest =>
    ({ s with completions := rest, port := { s.port with view := c.words } }.readingOf c).returned 1

/-- TAKE (R179); zero and no pop while held in reset (R151). -/
def execTake (s : State) : Host.Outcome State Fault Refusal :=
  .next (if s.held then s.returned 0 else s.takeRecord)

/-- A submission is judged by its kind field: the request it names, or an undefined kind (R169, TABLE 11-8). -/
def State.submit (s : State) : State :=
  match s.port.kind with
  | 0x1 => s.submitQueued .post
  | 0x2 => s.submitQueued .fetch
  | 0x3 => s.submitQueued .signal
  | 0x8 => s.submitStart
  | 0x9 => s.submitRestart
  | 0xA => s.submitSetMask
  | 0xB => s.submitAckSignal
  | 0xC => s.submitReadFault
  | 0xD => s.submitClearFaults
  | 0xE => s.submitReadReach
  | _ => s.submitUndefined

/-- A write of the window word at a byte offset: a request area word takes the value, a write to SUBMIT submits, and every other write is
ignored (R166, TABLE 11-6). An offset that is no multiple of 4 names no word (log 9). -/
def State.writeWindow (s : State) (offset : BitVec 8) (value : Word) : State :=
  let i := offset.toNat / 4
  if !wordOffset offset then s
  else if h : i < 4 then { s with port := { s.port with header := s.port.header.set i value } }
  else if h : i - 4 < 16 then { s with port := { s.port with data := s.port.data.set (i - 4) value } }
  else if i = 20 then s.submit
  else s

/-- REGISTER_WRITE (R166); ignored while held in reset (R151). -/
def execRegisterWrite (offset : BitVec 8) (value : Word) (s : State) : Host.Outcome State Fault Refusal :=
  .next (s.submission fun s => s.writeWindow offset value)

end Sys2Proof.Machine
end

