-- ==== Sys2Proof/Machine/Timers.lean ====
section
/-! DEFINITION. The timer expiries (R66, R85, R86). Timers run in real time, in OFFLINE as in every other state (R73, R90); a station held
in reset ignores an expiry (R151). -/

namespace Sys2Proof.Machine

/-- RETRY_TIMER_EXPIRY (R66). -/
def execRetryTimerExpiry (d : Station) (s : State) : Host.Outcome State Fault Refusal :=
  .next (if s.held then s else s.expireRetry d)

/-- FETCH_TIMER_EXPIRY (R85, R86). -/
def execFetchTimerExpiry (t : SlotNo) (s : State) : Host.Outcome State Fault Refusal :=
  .next (if s.held then s else (s.expireFetch t).done)

end Sys2Proof.Machine
end

