-- ==== Sys2Proof/Machine/Dispatch.lean ====
section
/-! DEFINITION. One arm per command: the meaning of each row of spec/opcode_table.json. -/

namespace Sys2Proof.Machine

/-- The effect of a command on everything but the queue of commands. -/
def exec (i : Instr) (s : State) : Host.Outcome State Fault Refusal :=
  match i with
  | .hardwareResetAssert => Sys2Proof.Machine.execHardwareResetAssert s
  | .hardwareResetRelease straps => Sys2Proof.Machine.execHardwareResetRelease straps s
  | .roundMark => Sys2Proof.Machine.execRoundMark s
  | .callClose picture => Sys2Proof.Machine.execCallClose picture s
  | .parcelWindow => Sys2Proof.Machine.execParcelWindow s
  | .parcelOutcome report => Sys2Proof.Machine.execParcelOutcome report s
  | .answerWindow => Sys2Proof.Machine.execAnswerWindow s
  | .answerClose report => Sys2Proof.Machine.execAnswerClose report s
  | .retryTimerExpiry d => Sys2Proof.Machine.execRetryTimerExpiry d s
  | .fetchTimerExpiry t => Sys2Proof.Machine.execFetchTimerExpiry t s
  | .applyWriteEnd ending => Sys2Proof.Machine.execApplyWriteEnd ending s
  | .applyReadEnd ending => Sys2Proof.Machine.execApplyReadEnd ending s
  | .landingEnd ending => Sys2Proof.Machine.execLandingEnd ending s
  | .abandonedAccessEnd ending => Sys2Proof.Machine.execAbandonedAccessEnd ending s
  | .post => Sys2Proof.Machine.execPost s
  | .fetch => Sys2Proof.Machine.execFetch s
  | .signal => Sys2Proof.Machine.execSignal s
  | .undefinedKind => Sys2Proof.Machine.execUndefinedKind s
  | .start => Sys2Proof.Machine.execStart s
  | .restart => Sys2Proof.Machine.execRestart s
  | .setMask => Sys2Proof.Machine.execSetMask s
  | .ackSignal => Sys2Proof.Machine.execAckSignal s
  | .readFault => Sys2Proof.Machine.execReadFault s
  | .clearFaults => Sys2Proof.Machine.execClearFaults s
  | .readReach => Sys2Proof.Machine.execReadReach s
  | .take => Sys2Proof.Machine.execTake s
  | .registerWrite offset value => Sys2Proof.Machine.execRegisterWrite offset value s

end Sys2Proof.Machine
end

