-- ==== Sys2Proof/Safety.lean ====
section
/-! DEFINITION. What counts as a sound state of the station: the laws the rules state of its counts, queues, tables and round. Each law is
one definition; every step keeps each of them (the statements say which laws a proof of it needs). -/

namespace Sys2Proof.Safety

open Sys2Proof.Machine

/-- A completion record whose count is in range (R175): a station notice counts 1 to 255. -/
def countInRange : Completion → Prop
  | .station _ n _ => 1 ≤ n ∧ n ≤ Config.countMax
  | _ => True

/-- The bounds of the counts: void-run, settle-collision (R17, R18), repair (R30), join-watch (R157), overflow and fault log (R144), silence
(R60), raise counts (R116) and notice counts (R175). -/
def Counts (s : State) : Prop :=
  s.span.voidRun ≤ Config.countMax ∧ s.span.settleCollision ≤ Config.collisionLimit ∧ s.turn.repair ≤ Config.countMax ∧
    s.joinWatch ≤ Config.watchLength ∧ s.contain.overflow ≤ Config.countMax ∧
    s.contain.log.length ≤ Config.faultCapacity ∧ (∀ d, (s.reachOf d).silence ≤ Config.silenceLimit) ∧
    (∀ n, (s.signalOf n).count ≤ Config.countMax) ∧ ∀ c ∈ s.completions, countInRange c

/-- The bounds of the queues: the send queue (R38), the inbound queue (R94) and the request budget (R172). -/
def Capacity (s : State) : Prop :=
  s.sendQueue.length ≤ Config.sendCapacity ∧ s.inbound.length ≤ Config.inboundCapacity ∧ s.budgetSum ≤ Config.budgetLimit

/-- At most one unread station notice of each kind (R174). -/
def NoticesOnce (s : State) : Prop := ∀ k, s.completions.countP (Completion.isNotice k) ≤ 1

/-- The combinations in which a signal entry holds its fields (R116). -/
def SignalForm (e : SignalEntry) : Prop :=
  (e.pending = false → e = idleSignal e.enabled) ∧
    (e.pending = true → 1 ≤ e.count ∧ e.first.isSome ∧ (e.notice = .none → e.enabled = false))

/-- The signal table and the completion queue agree: an UNREAD signal has its one notice in the queue, with its first source, and no other
signal has one (R116, R119, R120, R174). -/
def SignalsAgree (s : State) : Prop :=
  ∀ n, SignalForm (s.signalOf n) ∧
    s.completions.countP (Completion.isSignal n) = (if (s.signalOf n).notice = .unread then 1 else 0) ∧
    ∀ f, Completion.signal n f ∈ s.completions → (s.signalOf n).first = some f

/-- Whether an access is a read. -/
def isRead : Access → Bool
  | .read .. => true
  | .write .. => false

/-- Whether the path carries an access for the apply engine that meets `p` (R112). -/
def serving (p : Access → Bool) (m : MemPath) : Bool :=
  match m.state with
  | .busy .apply a => p a
  | _ => false

/-- The apply engine, the node memory path and the return list agree (R99, R101, R106, R112): the engine is IN_ACCESS exactly while the path
carries its access and in PATH_WAIT exactly while its request waits; nothing waits at a FREE path; the return list holds at most 8 RETURNs,
and has a place while a read for one is asked for or in flight. -/
def EngineAgrees (s : State) : Prop :=
  (s.engine = .inAccess ↔ serving (fun _ => true) s.path = true) ∧
    (s.engine = .pathWait ↔ s.path.applyWaiting.isSome = true) ∧
    (s.path.state = .free → s.path.applyWaiting = none ∧ s.path.landingWaiting = []) ∧
    s.returns.length ≤ Config.returnCapacity ∧
    (serving isRead s.path = true ∨ s.path.applyWaiting.any isRead = true → s.returns.length < Config.returnCapacity)

/-- The access that the head entry asks for once it is committed (R100, R101). -/
def headAccess (s : State) : Option Access :=
  match s.inbound.head? with
  | some { op := .post addr data, provisional := false, .. } => some (.write addr data)
  | some { op := .fetch addr length _, provisional := false, .. } => some (.read addr length)
  | _ => none

/-- The entry in progress is the head of the inbound queue (R99 to R101): an IDLE engine has no committed head, one in ROOM_WAIT has a FETCH
head and a full return list, and the access that waits or is in flight is the head's. Of a station that is not held in reset (log 8); a
CONTAINED station's engine is STOPPED or IN_ACCESS. -/
def HeadAgrees (s : State) : Prop :=
  s.held = false →
    (s.engine = .idle → s.station = .contained ∨ (s.inbound.head?.all (·.provisional)) = true) ∧
      (s.engine = .roomWait → (headAccess s).any isRead = true ∧ s.returns.length = Config.returnCapacity) ∧
      (s.engine = .pathWait → (headAccess s).isSome = true ∧ s.path.applyWaiting = headAccess s) ∧
      (s.engine = .inAccess → ∃ a ∈ headAccess s, s.path.state = .busy .apply a)

/-- One in-flight mark for a candidate of that source, none otherwise. -/
def marks (source : Source) (s : State) : Nat := if s.source? = some source then 1 else 0

/-- The phases in which no candidate is frozen: no round; a round this station does not own, after call close; and a round whose parcel this
station is asked to answer, or whose answer it drives (R3, R6, R12). -/
def receives : Phase → Bool
  | .none => true
  | .calling => false
  | .closed _ owned _ => !owned
  | .parcel _ sent => sent.isNone
  | .answer ask driven => ask.isSome || driven.isSome

/-- What an owned round holds: a call picture with a caller in it (R6), and then a parcel that carries the number `strap` as its sender
(R7). -/
def ownRound (strap : BitVec 4) : Phase → Bool
  | .closed picture owned _ => !owned || picture != 0
  | .parcel _ (some w) => (readHeader w.header0 w.header1).sender == strap.toNat
  | _ => true

/-- The round, the call mark, the candidate and the in-flight marks agree (R2, R3, R43, R107): a round is in progress only while the station
takes part; only an ACTIVE or CONTAINED station calls; a candidate is frozen only in a round, and by a station that called; exactly the
frozen entry or RETURN is in flight; what this station transmits carries its own number. -/
def RoundAgrees (s : State) : Prop :=
  (s.span.phase ≠ .none → s.takesPart = true) ∧
    (s.span.callMark = true → s.span.phase ≠ .none ∧ (s.station = .active ∨ s.station = .contained)) ∧
    (s.span.candidate.isSome = true → s.span.callMark = true) ∧
    (receives s.span.phase = true → s.span.candidate = none) ∧
    s.sendQueue.countP (·.inFlight) = marks .sendQueue s ∧ s.returns.countP (·.inFlight) = marks .returnList s ∧
    ownRound s.strap s.span.phase = true

/-- Whether the source is one whose parcels are addressed to a station, and not a broadcast (R10). -/
def addressed : Source → Bool
  | .sendQueue | .returnList => true
  | .contain | .hello => false

/-- Whether the round is in its answer window, or between the parcel outcome and it (R12). -/
def inAnswer : Phase → Bool
  | .answer .. => true
  | _ => false

/-- Whether the body is that of a CONTAIN. -/
def isContain : Body → Bool
  | .contain .. => true
  | _ => false

/-- What a candidate is (R4, R9 to R11, R138): the one the containment unit offers has a CONTAIN's body, and the one that waits for an answer
comes from the send queue or the return list, since no answer window follows a broadcast. -/
def CandidateAgrees (s : State) : Prop :=
  ∀ c, s.span.candidate = some c →
    (c.source = .contain → isContain c.body = true) ∧ (inAnswer s.span.phase = true → addressed c.source = true)

/-- The containment flag, its cause and the station state agree (R128, R135, R142): a CONTAINED station has the flag, the flag stands only in
CONTAINED and OFFLINE, and a cause is held exactly while it stands. -/
def ContainmentAgrees (s : State) : Prop :=
  (s.station = .contained → s.contain.flag = true) ∧
    (s.contain.flag = true → s.station = .contained ∨ s.station = .offline) ∧
    (s.contain.flag = s.contain.cause.isSome)

/-- The reach table's form (R60, R73): the SELF entry is that of the strap number and no other, and it keeps silence count 0; a retry timer
runs exactly while its entry is WAITING. -/
def ReachAgrees (s : State) : Prop :=
  ∀ d, ((s.reachOf d).state = .self ↔ s.isSelf d = true) ∧ ((s.reachOf d).state = .self → (s.reachOf d).silence = 0) ∧
    ((s.reachOf d).timer = .stopped ↔ (s.reachOf d).state ≠ .waiting)

/-- The slots whose landing the path carries or keeps waiting, the one in flight first (R83, R112). -/
def landings (m : MemPath) : List SlotNo :=
  (match m.state with
    | .busy (.landing t) _ => [t]
    | _ => []) ++ m.landingWaiting.map Prod.fst

/-- The fetch table and the path agree (R83, R84): a slot is LANDING exactly while the path carries its landing or keeps it waiting, once. The
law is about a station that is not held in reset, as its blocks take their reset values at the release (log 8). -/
def LandingAgrees (s : State) : Prop :=
  s.held = false → (landings s.path).Nodup ∧ ∀ t, (s.slot t).state = .landing ↔ t ∈ landings s.path

/-- The tag of an entry (R42): that of a FETCH in flight names a FREE slot, and that of any other FETCH is empty. -/
def tagHolds (s : State) (e : SendEntry) : Bool :=
  match e.op with
  | .fetch _ _ _ tag => if e.inFlight then tag.any fun t => (s.slot t).state == .free else tag.isNone
  | _ => true

/-- The tags of the send queue (R42). -/
def TagsAgree (s : State) : Prop := ∀ e ∈ s.sendQueue, tagHolds s e = true

/-- Whether this station drives TAKEN in the answer window of the round in progress (R12). -/
def drivesTaken : Phase → Bool
  | .answer none (some .taken) => true
  | _ => false

/-- What is held between an answer and its answer close (R79, R94, R97): a HOLDING slot with its result or a provisional entry at the tail,
one of them at most, and only while this station drives TAKEN. Of a station that is not held in reset (log 8). -/
def HoldingAgrees (s : State) : Prop :=
  s.held = false →
    (∀ t, (s.slot t).state = .holding → (s.slot t).held.isSome = true) ∧
      (∀ e ∈ s.inbound.dropLast, e.provisional = false) ∧
      s.inbound.countP (·.provisional) + s.slots.toList.countP (fun f => f.state == .holding) ≤
        (if drivesTaken s.span.phase then 1 else 0)

/-- The fetches that wait for a RETURN (R71): their source is REACHABLE or WAITING. -/
def WaitsAgree (s : State) : Prop :=
  ∀ t, (s.slot t).state = .awaiting ∨ (s.slot t).state = .holding →
    (s.reachOf (s.slot t).dest).state = .reachable ∨ (s.reachOf (s.slot t).dest).state = .waiting

/-- The lanes and the return list agree with the reach table (R41, R52, R71, R106): no entry waits for a station that is UNREACHABLE, CONTAINED
or SELF, and no RETURN for one that is UNREACHABLE or CONTAINED. -/
def LanesAgree (s : State) : Prop :=
  (∀ e ∈ s.sendQueue,
      (s.reachOf e.dest).state ≠ .unreachable ∧ (s.reachOf e.dest).state ≠ .contained ∧ (s.reachOf e.dest).state ≠ .self) ∧
    ∀ r ∈ s.returns, (s.reachOf r.requester).state ≠ .unreachable ∧ (s.reachOf r.requester).state ≠ .contained

/-- What a CONTAINED station holds (R54, R89, R104): no entry but the one in flight, no AWAITING slot, and an apply engine that is STOPPED or
IN_ACCESS with no request waiting. Of a station that is not held in reset (log 8). -/
def ContainedHolds (s : State) : Prop :=
  s.held = false → s.station = .contained →
    (∀ e ∈ s.sendQueue, e.inFlight = true) ∧ (∀ t, (s.slot t).state ≠ .awaiting) ∧
      (s.engine = .inAccess ∨ s.engine = .stopped) ∧ s.path.applyWaiting = none

/-- The pending CONTAIN (R130 to R132, R137): it is HALTED exactly at a CONTAINED station, and late sources are kept only while it is frozen. Of
a station that is not held in reset (log 8). -/
def PendingAgrees (s : State) : Prop :=
  s.held = false →
    (∀ p ∈ s.contain.pendingContain, p.mode = .halted ↔ s.station = .contained) ∧
      (s.contain.late ≠ 0 → s.containFrozen = true)

/-- Whether the path carries an access of this station's (R112). -/
def carries : PathState → Bool
  | .busy .. => true
  | .free | .abandoned _ => false

/-- What a station held in reset holds (R103, R114, R151): an engine with nothing to do, and no access but an abandoned one. -/
def HeldHolds (s : State) : Prop :=
  s.held = true →
    s.engine = .idle ∧ carries s.path.state = false ∧ s.path.applyWaiting = none ∧ s.path.landingWaiting = []

/-- What an UNSTARTED station holds (R23, R58, R75, R92, R115, R127, R149, R151, R153, R182): the values of hardware reset, but for the path of
an abandoned access and for the words of the node port. -/
def UnstartedHolds (s : State) : Prop :=
  s.station = .unstarted →
    s.config = none ∧ s.joinWatch = 0 ∧ s.helloPending = false ∧ s.span = .reset ∧ s.turn = .reset ∧ s.sendQueue = [] ∧
      s.reach = reachReset s.strap ∧ s.slots = slotsReset ∧ s.inbound = [] ∧ s.engine = .idle ∧ s.returns = [] ∧
      carries s.path.state = false ∧ s.path = { MemPath.reset with state := s.path.state } ∧
      s.signals = signalsReset ∧ s.contain = .reset ∧ s.completions = []

/-- What a station holds that has not yet joined the span (R153, R156): nothing to apply, to answer or to land, no open episode, no CONTAIN and
no HELLO pending, and a join watch that has not ended. -/
def JoiningHolds (s : State) : Prop :=
  s.station = .unstarted ∨ s.station = .listening →
    s.inbound = [] ∧ s.engine = .idle ∧ s.returns = [] ∧ (∀ t, (s.slot t).state = .free) ∧ carries s.path.state = false ∧
      s.path.applyWaiting = none ∧ s.path.landingWaiting = [] ∧ (∀ n, (s.signalOf n).pending = false) ∧
      s.contain.flag = false ∧ s.contain.pendingContain = none ∧ s.contain.late = 0 ∧ s.helloPending = false ∧
      s.joinWatch < Config.watchLength

end Sys2Proof.Safety
end

