-- ==== Sys2Proof/Certificates/Slice0/Obligations.lean ====
section
/-! DEFINITION. The statements for the provers. Each formalises numbered rules of spec/, or follows from them; its docstring says which. A
frame is written `t = { s with f := t.f }`: the next state agrees with the state before in every field but those named. -/

namespace Sys2Proof.Claims

open Sys2Proof.Machine Sys2Proof.Safety

/-! ## Terms of the statements -/

/-- The field of `len` bits of request header word `word` whose least significant bit is bit `lo`. By TABLE 11-7, in the order word, bit, bits:
kind 0 0 4, destination 0 8 4, length 0 16 5, signal number 0 24 5, report flag 0 31 1, station number 1 0 4, class 1 0 1, fault policy 1 1 1,
patience code 1 4 3, retry code 1 8 3, fetch-timeout code 1 12 3, cookie and window size 3 0 16. -/
def field (s : State) (word : Fin 4) (lo len : Nat) : Nat := bits s.port.header[word.val] lo len

/-- The command is a write to SUBMIT while the kind field holds `kind` (R169, TABLE 11-8). -/
def submits (kind : Nat) (c : Instr) (s : State) : Bool :=
  match c with
  | .registerWrite offset _ => offset == 0x50#8 && field s 0 0 4 == kind
  | _ => false

/-- The command releases the hardware reset (R151). -/
def releases : Instr → Bool
  | .hardwareResetRelease _ => true
  | _ => false

/-- The command submits a START that the window takes (R151, R154). -/
def starts (c : Instr) (s : State) : Bool := !s.held && (c == .start || submits 0x8 c s)

/-- The command is a RESTART that is accepted (R163). -/
def restarts (c : Instr) (s : State) : Bool :=
  !s.held && s.station != .unstarted && (c == .restart || submits 0x9 c s)

/-- The command submits a CLEAR_FAULTS that the window takes (R147). -/
def clears (c : Instr) (s : State) : Bool := !s.held && (c == .clearFaults || submits 0xD c s)

/-- The command is a parcel outcome (R8). -/
def isOutcome : Instr → Bool
  | .parcelOutcome _ => true
  | _ => false

/-- `n` is the member of `set` found first in a search from `k` (02 section 2.1). -/
def FirstFrom (k : Station) (set : StationSet) (n : Station) : Prop :=
  StationSet.has set n = true ∧ ∀ m, StationSet.has set m = true → (n - k).val ≤ (m - k).val

/-- The station waits for the outcome of a round with callers that another station owns; it has no candidate (R6, R7). A station that receives
takes the outcome whether or not PARCEL_WINDOW was given to it: the form that stands after call close is the model's choice (log 4). -/
abbrev Receives (s : State) (picture : StationSet) (settle : Bool) : Prop :=
  s.takesPart = true ∧ (s.span.phase = .closed picture false settle ∧ picture ≠ 0 ∨ s.span.phase = .parcel settle none) ∧
    s.span.candidate = none

/-- The two header words name station `n` as sender and carry the stamp `st` (R10, R185). -/
abbrev Carries (w0 w1 : Word) (n : Station) (st : Stamp) : Prop :=
  (readHeader w0 w1).sender = n.val ∧ (readHeader w0 w1).stamp? = some st

/-- What the words after the header carry (R184). -/
abbrev carried (w0 w1 : Word) (words : List Word) : Option Body := readBody (readHeader w0 w1).kind words

/-- An answer window follows the parcel (R10). -/
def windowFollows (h : Header) : Bool :=
  (h.kind == 1 || h.kind == 2 || h.kind == 3 || h.kind == 4) && decide (h.dest < 12) && h.dest != h.sender

/-- A parcel that the reach table and the containment unit hear and nothing more: not a well-formed HELLO or CONTAIN (R62, R184). -/
def plain : Option Body → Bool
  | some (.hello ..) | some (.contain ..) => false
  | _ => true

/-- The class a well-formed HELLO carries (R31). -/
def announced : Option Body → Option StationClass
  | some (.hello cls _) => some cls
  | _ => none

/-- The span unit at the end of a round (R14, R21). That the call mark is cleared at that point is the model's choice (log 15). -/
def ended (u : SpanUnit) : SpanUnit := { u with phase := .none, callMark := false, candidate := none }

/-- The span unit after a GOOD outcome (R17, R18), before its round goes on or ends. -/
def good (u : SpanUnit) : SpanUnit := { u with voidRun := 0, settleCollision := 0 }

/-- The station at the end of a counted round (R157, R158). -/
def counted (s : State) : State :=
  if s.station = .listening then
    if s.joinWatch + 1 < 4 then { s with joinWatch := s.joinWatch + 1 }
    else { s with joinWatch := 4, station := .active, helloPending := true }
  else s

/-- The reach entry of a peer that is heard, with the room flag of its parcel (R62, R66). -/
def heardEntry (e : ReachEntry) (room : Bool) : ReachEntry :=
  match e.state with
  | .unknown | .unreachable => { e with state := .reachable, silence := 0 }
  | .waiting => if room then { state := .reachable, silence := 0, timer := .stopped } else { e with silence := 0 }
  | .reachable | .contained => { e with silence := 0 }
  | .self => e

/-- The reach entry of a peer whose reply is booked (R63). -/
def bookedEntry (e : ReachEntry) : ReachEntry :=
  match e.state with
  | .unknown | .unreachable => { e with state := .reachable, silence := 0 }
  | .waiting | .reachable | .contained => { e with silence := 0 }
  | .self => e

/-- The range of a POST or FETCH lies inside the window the station exposes (R96). -/
def insideWindow (s : State) (addr : Word) (length : Nat) : Bool :=
  s.config.any fun c =>
    decide (addr.toNat % 4 = 0) && decide (c.windowBase.toNat ≤ addr.toNat) &&
      decide (addr.toNat + 4 * length ≤ c.windowBase.toNat + 4096 * c.windowPages.toNat)

/-- Nothing is held for an answer, and the apply engine has no entry to take at the end of the round: an IDLE one has no head, and one in ROOM_WAIT
has a FETCH head (R97, R99). -/
abbrev HolderIdle (s : State) : Prop :=
  (∀ e ∈ s.inbound, e.provisional = false) ∧ (∀ t, (s.slot t).state ≠ .holding) ∧ (s.engine = .idle → s.inbound = []) ∧
    (s.engine = .roomWait → (headAccess s).any isRead = true)

/-- The answer window of the parcel this station sent from its send queue is open: `e` is in flight, with `older` before it and `younger`
behind it in the queue (R3, R11). -/
abbrev Awaits (s : State) (older : List SendEntry) (e : SendEntry) (younger : List SendEntry) : Prop :=
  s.takesPart = true ∧ s.span.phase = .answer none none ∧ s.source? = some .sendQueue ∧
    s.sendQueue = older ++ e :: younger ∧ e.inFlight = true ∧ (∀ x ∈ older, x.inFlight = false) ∧
    (∀ x ∈ younger, x.inFlight = false) ∧ (∀ x ∈ older, x.dest ≠ e.dest) ∧ HolderIdle s

/-- The same for a RETURN (R107). -/
abbrev AwaitsReturn (s : State) (older : List ReturnEntry) (r : ReturnEntry) (younger : List ReturnEntry) : Prop :=
  s.takesPart = true ∧ s.span.phase = .answer none none ∧ s.source? = some .returnList ∧
    s.returns = older ++ r :: younger ∧ r.inFlight = true ∧ (∀ x ∈ older, x.inFlight = false) ∧
    (∀ x ∈ younger, x.inFlight = false) ∧ HolderIdle s

/-- The records of a lane failure: the head with its status, then CANCELLED for each younger entry (R51). -/
def failure (status : Status) (e : SendEntry) (younger : List SendEntry) : List Completion :=
  e.record status :: (younger.filter fun x => x.dest == e.dest).map fun x => x.record .cancelled

/-- The records of the AWAITING slots for `d`, in rising slot number (R87, R88). -/
def slotFailures (s : State) (d : Station) (status : Status) : List Completion :=
  (List.finRange 8).filterMap fun t =>
    if (s.slot t).state = .awaiting ∧ (s.slot t).dest = d then
      some (.request (s.slot t).cookie .fetch d status)
    else none

/-- The records of every AWAITING slot but those for which `spared` holds, at containment entry (R89). -/
def slotFlush (s : State) (spared : Station → Bool) : List Completion :=
  (List.finRange 8).filterMap fun t =>
    if (s.slot t).state = .awaiting ∧ spared (s.slot t).dest = false then
      some (.request (s.slot t).cookie .fetch (s.slot t).dest .localContained)
    else none

/-- The records of the containment flush of these entries (R54). -/
def sendFlush (queue : List SendEntry) : List Completion :=
  (queue.filter fun e => !e.inFlight).map fun e => e.record .localContained

/-- The completion queue `t` is `q` with the groups appended whole, in some order, notices coalesced (R53, R176, R178). -/
def AppendsGroups (q t : List Completion) (groups : List (List Completion)) : Prop :=
  ∃ order : List (List Completion), order.Perm groups ∧ t = order.flatten.foldl push q

/-- An older entry stands before `e`, or its destination or the fetch table holds it back (R41). -/
def Eligible (s : State) (older : List SendEntry) (e : SendEntry) : Prop :=
  (∀ x ∈ older, x.dest ≠ e.dest) ∧
    ((s.reachOf e.dest).state = .unknown ∨ (s.reachOf e.dest).state = .reachable) ∧
    (e.kind = .fetch → ∃ k, (s.slot k).state = .free)

/-- The round mark finds a station that asks its transmit selector (R3, R4, R20). -/
abbrev Selects (s : State) : Prop :=
  s.held = false ∧ (s.station = .active ∨ s.station = .contained) ∧ s.span.phase = .none ∧ s.span.callBar = false

/-- The span unit when it calls with a frozen candidate (R3). -/
def calls (u : SpanUnit) (c : Candidate) : SpanUnit := { u with phase := .calling, callMark := true, candidate := some c }

/-- The containment unit with a record added to its log, or counted when the log is full (R144). -/
def logged (c : ContainUnit) (r : FaultRecord) : ContainUnit :=
  if c.log.length < 4 then { c with log := c.log ++ [r] }
  else { c with overflow := if c.overflow < 255 then c.overflow + 1 else c.overflow }

/-- Nothing waits at the path (R112). -/
abbrev PathQuiet (s : State) : Prop := s.path.applyWaiting = none ∧ s.path.landingWaiting = []

/-- `t` is `s` with the path served once its access has ended: it is FREE where nothing waits, and starts the request that waits otherwise, that
of the user not served last where both wait (R112, R113). -/
def PathServed (s t : State) : Prop :=
  (PathQuiet s → t = { s with path := { s.path with state := .free } }) ∧
    (∀ a, s.path.applyWaiting = some a → s.path.landingWaiting = [] ∨ s.path.lastServed = .landing →
      t = { s with
        engine := .inAccess, path := { s.path with state := .busy .apply a, applyWaiting := none, lastServed := .apply } }) ∧
    ∀ k a rest, s.path.landingWaiting = (k, a) :: rest → s.path.applyWaiting = none ∨ s.path.lastServed = .apply →
      t = { s with path := { s.path with state := .busy (.landing k) a, landingWaiting := rest, lastServed := .landing } }

/-- The path after an access of the apply engine: the oldest landing that waits is started (R112, R113). -/
def freed (p : MemPath) : MemPath :=
  match p.landingWaiting with
  | [] => { p with state := .free }
  | (k, a) :: rest => { p with state := .busy (.landing k) a, landingWaiting := rest, lastServed := .landing }

/-- The apply engine asks for an access: started at once on a FREE path, waiting otherwise (R112). -/
def asks (s : State) (a : Access) : State :=
  if s.path.state = .free then
    { s with engine := .inAccess, path := { s.path with state := .busy .apply a, lastServed := .apply } }
  else { s with engine := .pathWait, path := { s.path with applyWaiting := some a } }

/-- The apply engine takes a head that is no committed SIGNAL: it asks for the write of a POST (R100), and for the read of a FETCH when the
return list has a place, else it is in ROOM_WAIT (R101); without a committed head it is IDLE (R99). -/
def nextHead (s : State) : State :=
  match headAccess s with
  | none => { s with engine := .idle }
  | some a => if isRead a = true ∧ 8 ≤ s.returns.length then { s with engine := .roomWait } else asks s a

/-- The head of the queue is a committed SIGNAL. -/
def signalNext : List InboundEntry → Bool
  | { op := .signal _, provisional := false, .. } :: _ => true
  | _ => false

/-- Signal `k` raised from `source`: a new episode with its notice when the signal is enabled, or a raise of the open one (R117, R118). -/
def raised (s : State) (k : SignalNo) (source : Station) : State :=
  let e := s.signalOf k
  if e.pending then
    { s with signals := s.signals.set k.val { e with count := if e.count < 255 then e.count + 1 else e.count } }
  else
    { s with
      signals := s.signals.set k.val
        { pending := true, enabled := e.enabled, count := 1, first := some source
          notice := if e.enabled then .unread else e.notice }
      completions := if e.enabled then s.completions ++ [.signal k source] else s.completions }

/-- The committed SIGNAL entries of these signals, each with its source, the oldest first. -/
def signalEntries (raises : List (SignalNo × Station)) : List InboundEntry :=
  raises.map fun r => { op := .signal r.1, source := r.2, provisional := false }

/-- The signals raised one after another (R99, R102). -/
def raisedAll (s : State) (raises : List (SignalNo × Station)) : State := raises.foldl (fun u r => raised u r.1 r.2) s

/-- `t` is `s` after the apply engine has raised the SIGNALs in front and taken the head behind them, where the same event hands on the record
`told` of its fault: the notices of the raises join the completion queue in their order, and which of them `told` precedes is left free,
as is the order of the records of any two blocks (R176, log 2). -/
def GoesOnTelling (s t : State) (told : Completion) (raises : List (SignalNo × Station)) : Prop :=
  t = { nextHead (raisedAll s raises) with completions := t.completions, choices := t.choices } ∧
    let notices := (raisedAll { s with completions := [] } raises).completions
    (∃ before after, notices = before ++ after ∧ t.completions = (before ++ told :: after).foldl push s.completions) ∧
      (notices = [] → t.choices = s.choices)

/-- An engine in ROOM_WAIT with a FETCH head asks for its read when `t` has a place in the return list (R101, R103); any other engine, and
the path, stay as they were. -/
def RoomFreed (s t : State) : Prop :=
  (s.engine ≠ .roomWait ∨ 8 ≤ t.returns.length → t.engine = s.engine ∧ t.path = s.path) ∧
    ∀ a, s.engine = .roomWait → t.returns.length < 8 → headAccess s = some a → isRead a = true →
      t.engine = (asks s a).engine ∧ t.path = (asks s a).path

/-- The write of the head `e`, a POST, is in flight (R100). -/
abbrev WritesHead (s : State) (e : InboundEntry) (rest : List InboundEntry) (addr : Word) (data : List Word) : Prop :=
  s.held = false ∧ s.inbound = e :: rest ∧ e.op = .post addr data ∧ s.engine = .inAccess ∧
    s.path.state = .busy .apply (.write addr data) ∧ s.path.applyWaiting = none

/-- The read of the head `e`, a FETCH, is in flight (R101). -/
abbrev ReadsHead (s : State) (e : InboundEntry) (rest : List InboundEntry) (addr : Word) (length : Nat) (tag : SlotNo) : Prop :=
  s.held = false ∧ s.inbound = e :: rest ∧ e.op = .fetch addr length tag ∧ s.engine = .inAccess ∧
    s.path.state = .busy .apply (.read addr length) ∧ s.path.applyWaiting = none

/-- An answer window that held no good answer: empty, garbled, or an undefined code (R13, R186). -/
abbrev noReply (report : AnswerReport) : Prop :=
  report = .empty ∨ report = .garbled ∨ report = .code 0 ∨ report = .code 6 ∨ report = .code 7

/-- The reach states from which the third no-reply in a row makes a station UNREACHABLE (R64). -/
abbrev canFallSilent (st : ReachState) : Prop := st = .unknown ∨ st = .reachable ∨ st = .waiting

/-- A CONTAIN of this mode closes its sender `n`: HALTED, with an entry that is neither CONTAINED nor SELF (R60, R67). -/
def closes (s : State) (n : Station) (mode : ContainMode) : Bool :=
  mode == .halted && (s.reachOf n).state != .contained && (s.reachOf n).state != .self

/-- The entry of a sender whose HALTED CONTAIN or REFUSED answer closed it (R67, R68). -/
def haltedEntry : ReachEntry := { state := .contained, silence := 0, timer := .stopped }

/-- The entry of a station that the third no-reply in a row closed (R64). -/
def silentEntry : ReachEntry := { state := .unreachable, silence := 3, timer := .stopped }

/-- The AWAITING slots for which `p` holds are FREE in `t`, and every other slot is as it was (R76, R88; log 17 for the fields of a FREE
slot). -/
def SlotsEnd (s t : State) (p : FetchSlot → Prop) : Prop :=
  ∀ i, ((s.slot i).state = .awaiting ∧ p (s.slot i) → t.slot i = freeSlot) ∧
    (¬ ((s.slot i).state = .awaiting ∧ p (s.slot i)) → t.slot i = s.slot i)

/-- The patience limits by code, in FULL answers (TABLE 3-4). -/
def patienceLimits : List Nat := [4, 8, 16, 32]

/-- The retry intervals by code, in microseconds (TABLE 3-4). -/
def retryIntervals : List Nat := [50, 200, 800, 3200]

/-- The fetch timeouts by code, in microseconds (TABLE 3-4). -/
def fetchTimeouts : List Nat := [2000, 8000, 32000, 128000]

/-- The completion status codes (TABLE 11-11). -/
def statusCodes : List (Nat × Status) :=
  [(1, .done), (2, .fetched), (3, .fullExhausted), (4, .outsideWindow), (5, .cancelled), (6, .unreachable), (7, .destContained),
    (8, .localContained), (9, .fetchTimeout), (10, .readError), (11, .landError), (12, .destRestarted)]

/-- The station notice kind codes (11 section 11.6). -/
def noticeCodes : List (Nat × NoticeKind) :=
  [(1, .localFault), (2, .peerHalted), (3, .peerFaulted), (4, .postLost), (5, .peerRestarted), (6, .spanUnsteady), (7, .returnStale),
    (8, .wentOffline)]

/-- The reach state codes (TABLE 11-9). -/
def reachCodes : List (Nat × ReachState) :=
  [(0, .unknown), (1, .reachable), (2, .waiting), (3, .unreachable), (4, .contained), (5, .self)]

/-- The result codes (TABLE 11-10). -/
def resultCodes : List (Nat × Result) :=
  [(0x00, .none), (0x01, .accepted), (0x10, .notStarted), (0x11, .contained), (0x12, .offline), (0x20, .badKind), (0x21, .badDest),
    (0x22, .badLength), (0x23, .badAddress), (0x24, .badSignal), (0x30, .destUnreachable), (0x31, .destContained),
    (0x32, .queueFull), (0x33, .budgetExhausted), (0x40, .alreadyStarted), (0x41, .badStrap), (0x42, .badCode), (0x43, .badWindow),
    (0x50, .notPending), (0x51, .noticeUnread), (0x52, .noRecord), (0x53, .logHeld)]

/-- The cause codes of a fault record (TABLE 11-13). -/
def causeCodes : List (Nat × FaultCause) := [(0, .applyFault), (1, .implicated)]

/-- The station state codes (TABLE 11-14). -/
def stationCodes : List (Nat × StationState) := [(0, .unstarted), (1, .listening), (2, .active), (3, .contained), (4, .offline)]

/-- The answer codes (TABLE 11-5). -/
def answerCodes : List (BitVec 3 × AnswerCode) := [(1, .taken), (2, .full), (3, .refused), (4, .outside), (5, .stale)]

/-- The words lay out the body, and `kind` is its kind code, as TABLES 11-2 and 11-3 give them. -/
def BodyLaidOut (kind : Nat) (words : List Word) : Body → Prop
  | .post addr data => kind = 1 ∧ ∃ w, words = w :: addr :: data ∧ bits w 0 5 = data.length
  | .fetch addr length tag => kind = 2 ∧ ∃ w, words = [w, addr] ∧ bits w 0 5 = length ∧ bits w 8 4 = tag.val
  | .signal n => kind = 3 ∧ ∃ w, words = [w] ∧ bits w 0 4 = n.val
  | .ret tag (.ok data) => kind = 4 ∧ ∃ w, words = w :: data ∧ bits w 8 4 = tag.val ∧ bits w 16 2 = 0
  | .ret tag .readError => kind = 4 ∧ ∃ w, words = [w] ∧ bits w 8 4 = tag.val ∧ bits w 16 2 = 1
  | .hello cls policy =>
    kind = 8 ∧ ∃ w, words = [w] ∧ bits w 0 1 = (if cls = .high then 1 else 0) ∧ bits w 1 1 = (if policy = .halt then 1 else 0)
  | .contain mode cause named addr length =>
    kind = 9 ∧ ∃ w, words = [w, addr] ∧ bits w 0 1 = (if mode = .halted then 1 else 0) ∧ (bits w 1 1, cause) ∈ causeCodes ∧
      bits w 8 5 = length ∧ bits w 16 12 = named.toNat

/-- A good parcel of kind code `kind` with these body words is malformed (R184): an undefined kind, a body that lacks a word its kind has, or a
form of the table of R184. -/
def Malformed (kind : Nat) (words : List Word) : Prop :=
  let w := words.headD 0
  match kind with
  | 1 => words.length < 2 ∨ bits w 0 5 = 0 ∨ 17 ≤ bits w 0 5 ∨ words.length - 2 ≠ bits w 0 5
  | 2 => words.length ≠ 2 ∨ bits w 0 5 = 0 ∨ 17 ≤ bits w 0 5 ∨ 8 ≤ bits w 8 4
  | 3 | 8 => words.length ≠ 1
  | 4 =>
    words = [] ∨ 2 ≤ bits w 16 2 ∨ bits w 16 2 = 0 ∧ (words.length = 1 ∨ 17 < words.length) ∨ bits w 16 2 = 1 ∧ words.length ≠ 1
  | 9 => words.length ≠ 2 ∨ bits w 8 5 = 0 ∨ 17 ≤ bits w 8 5
  | _ => True

/-- The four words lay out the record as TABLE 11-12 does; the words a record does not fill are zero. A station notice has a count from 1 to
255 and an argument of one word (R175). -/
def LaidOut (v : Vector Word 4) : Completion → Prop
  | .request cookie kind dest status =>
    bits v[0] 0 2 = 1 ∧ (bits v[0] 4 4, kind) ∈ [(1, RequestKind.post), (2, .fetch), (3, .signal)] ∧ bits v[0] 8 4 = dest.val ∧
      (bits v[0] 16 5, status) ∈ statusCodes ∧ bits v[1] 0 16 = cookie.toNat ∧ v[2] = 0 ∧ v[3] = 0
  | .signal n first =>
    bits v[0] 0 2 = 2 ∧ bits v[0] 4 4 = n.val ∧ bits v[0] 8 4 = first.val ∧ v[1] = 0 ∧ v[2] = 0 ∧ v[3] = 0
  | .station kind count arg =>
    count ≤ 255 → arg < 2 ^ 32 →
      bits v[0] 0 2 = 3 ∧ (bits v[0] 4 4, kind) ∈ noticeCodes ∧ bits v[0] 16 8 = count ∧ v[1].toNat = arg ∧ v[2] = 0 ∧ v[3] = 0

/-- The bits of body word 0 that TABLE 11-3 assigns, by kind code. -/
def assigned : Nat → Word
  | 1 => 0x0000001F
  | 2 => 0x00000F1F
  | 3 => 0x0000000F
  | 4 => 0x00030F00
  | 8 => 0x00000003
  | 9 => 0x0FFF1F03
  | _ => 0

/-- The range of a request lies in the address space, word aligned (R170 check 5). -/
def aligned (addr : Word) (length : Nat) : Bool := decide (addr.toNat % 4 = 0) && decide (addr.toNat + 4 * length ≤ 2 ^ 32)

/-- The command that submits the composed request as a request of kind `k` (R167). -/
def command : RequestKind → Instr
  | .post => .post
  | .fetch => .fetch
  | .signal => .signal

/-- The reach state of the destination field, if it names a station (R170 check 7). -/
def destState (s : State) : Option ReachState := (station? (field s 0 8 4)).map fun d => (s.reachOf d).state

/-- The checks of R170 in their order, each with the result of its failure; check 2 is passed by a named kind. -/
def admission (s : State) (k : RequestKind) : List (Bool × Result) :=
  [(s.station == .unstarted, .notStarted), (s.station == .contained, .contained), (s.station == .offline, .offline),
    (decide (12 ≤ field s 0 8 4) || field s 0 8 4 == s.strap.toNat, .badDest),
    (k != .signal && !(decide (1 ≤ field s 0 16 5) && decide (field s 0 16 5 ≤ 16)), .badLength),
    (k != .signal && !aligned s.port.header[1] (field s 0 16 5), .badAddress),
    (k == .fetch && !aligned s.port.header[2] (field s 0 16 5), .badAddress),
    (k == .signal && decide (16 ≤ field s 0 24 5), .badSignal),
    (destState s == some .unreachable, .destUnreachable), (destState s == some .contained, .destContained),
    (decide (32 ≤ s.sendQueue.length), .queueFull), (decide (40 ≤ s.budgetSum), .budgetExhausted)]

/-- The result of the first check that fails. -/
def refusal (checks : List (Bool × Result)) : Option Result := (checks.find? fun c => c.1).map fun c => c.2

/-- The station with a result in RESULT and nothing else changed (R168). -/
def answered (s : State) (r : Result) : State := { s with port := { s.port with result := r } }

/-- The station with ACCEPTED and values in the first two RESULT VIEW words, the others zero (R168). -/
def shown (s : State) (w0 w1 : Word) : State :=
  { s with port := { s.port with result := .accepted, resultView := #v[w0, w1, 0, 0] } }

/-- The station takes immediate requests other than START (R173). -/
abbrev Takes (s : State) : Prop := s.held = false ∧ s.station ≠ .unstarted

end Sys2Proof.Claims

section

open Sys2Proof Sys2Proof.Machine Sys2Proof.Safety Sys2Proof.Claims

/-! ## The queue of commands, reset, and who writes what -/

/-- A step runs the command at the front of the queue with the queue's rest; an empty queue idles (the model's convention, logs 5 and 19). -/
def Obligations.StepRunsFrontCommand : Prop :=
  (∀ (c : Instr) (rest : List Instr) (s : State), step { s with pending := c :: rest } = exec c { s with pending := rest }) ∧
    ∀ s : State, s.pending = [] → step s = .next s

/-- Every command completes in every state and leaves the queue of commands alone (derived: no rule stops a command; logs 4 and 19). -/
def Obligations.EveryCommandCompletes : Prop :=
  ∀ (c : Instr) (s : State), ∃ t, exec c s = .next t ∧ t.pending = s.pending

/-- The release of hardware reset samples the straps and gives every block its reset values (R21, R23, R58, R75, R92, R115, R126, R149, R151,
R152, R155, R182). At a RELEASE with no ASSERT before it, that a BUSY access is then ABANDONED, and that every block is reset, is the
model's choice: it stands for a pulse of the pin (log 8). -/
def Obligations.ReleaseGivesResetValues : Prop :=
  ∀ (straps : BitVec 4) (s : State), ∃ t, exec (.hardwareResetRelease straps) s = .next t ∧
    t.held = false ∧ t.strap = straps ∧ t.station = .unstarted ∧ t.config = none ∧ t.joinWatch = 0 ∧ t.helloPending = false ∧
    t.span = { phase := .none, callMark := false, candidate := none, voidRun := 0, settleCollision := 0, callBar := false } ∧
    t.turn = { stamp := { hp := 11, lp := 11, lo := false, high := 0 }, settle := true, repair := 0 } ∧
    t.sendQueue = [] ∧
    (∀ d, t.reachOf d =
      { state := if d.val = straps.toNat then .self else .unknown, silence := 0, timer := .stopped }) ∧
    (∀ i, (t.slot i).state = .free ∧ (t.slot i).held = none ∧ (t.slot i).timer = .stopped ∧ (t.slot i).deferred = false) ∧
    t.inbound = [] ∧ t.engine = .idle ∧ t.returns = [] ∧
    t.path =
      { state := (match s.path.state with
          | .free => .free
          | .busy _ a => .abandoned a
          | .abandoned a => .abandoned a)
        applyWaiting := none
        landingWaiting := []
        lastServed := .landing } ∧
    (∀ n, t.signalOf n = { pending := false, enabled := false, count := 0, first := none, notice := .none }) ∧
    t.contain = { flag := false, cause := none, pendingContain := none, late := 0, log := [], overflow := 0 } ∧
    t.completions = [] ∧ (∀ i, t.port.headerWord i = 0) ∧ (∀ i, t.port.dataWord i = 0) ∧ t.port.result = .none ∧
    (∀ i : Fin 4, t.port.resultView[i.val] = 0 ∧ t.port.view[i.val] = 0)

/-- Asserting the reset pin takes the station off the span at once, quiets its outputs and abandons its access; a path that is FREE or
ABANDONED keeps its state, and every other field but the in-flight marks and the engine stays (R151, R16, R103, R114; logs 8 and 10, and
log 15 for the call mark). -/
def Obligations.AssertSilencesStation : Prop :=
  ∀ s : State, ∃ t, exec .hardwareResetAssert s = .next t ∧
    t = { s with
      held := true, span := ended s.span, sendQueue := t.sendQueue, returns := t.returns, engine := .idle, path := t.path } ∧
    t.sendQueue = s.sendQueue.map (fun e => if e.inFlight then e.release else e) ∧
    t.returns = s.returns.map (fun r => { r with inFlight := false }) ∧
    (s.held = true → t.path = s.path) ∧
    (s.held = false → t.path.applyWaiting = none ∧ t.path.landingWaiting = [] ∧ t.path.lastServed = s.path.lastServed ∧
      (∀ u a, s.path.state = .busy u a → t.path.state = .abandoned a) ∧
      ((∀ u a, s.path.state ≠ .busy u a) → t.path.state = s.path.state)) ∧
    t.takesPart = false ∧ t.noticeLine = false ∧ ∀ offset, t.readWindow offset = 0

/-- A station held in reset ignores every command but the two of the pin, the ending of an abandoned access, and a read of TAKE, which returns zero
and pops nothing (R151; log 11 for where the zero is kept). -/
def Obligations.HeldStationIgnores : Prop :=
  ∀ (c : Instr) (s : State), s.held = true →
    (c = .take → exec c s = .next { s with port := { s.port with takeWord := 0 } }) ∧
    (c ≠ .take → c ≠ .hardwareResetAssert → releases c = false → (∀ e, c ≠ .abandonedAccessEnd e) → exec c s = .next s)

/-- The station right after reset meets every law (R151; log 17 for the fields of a FREE slot). -/
def Obligations.ResetMeetsEveryLaw : Prop :=
  ∀ straps : BitVec 4, let s := State.resetWith straps
    Counts s ∧ Capacity s ∧ NoticesOnce s ∧ SignalsAgree s ∧ EngineAgrees s ∧ HeadAgrees s ∧ RoundAgrees s ∧
      ContainmentAgrees s ∧ ReachAgrees s ∧ LandingAgrees s ∧ TagsAgree s ∧ HoldingAgrees s ∧ WaitsAgree s ∧ LanesAgree s ∧
      ContainedHolds s ∧ PendingAgrees s ∧ UnstartedHolds s ∧ JoiningHolds s ∧ HeldHolds s ∧ CandidateAgrees s

/-- The strap number changes only at the release of hardware reset (R152), the configuration only there and at an accepted START (R155), the
turn record only there, at an accepted RESTART and at a parcel outcome (R22, R23, R29, R32, R33). -/
def Obligations.RegistersHaveTheirWriters : Prop :=
  ∀ (c : Instr) (s t : State), exec c s = .next t → releases c = false →
    t.strap = s.strap ∧
      (t.config ≠ s.config → starts c s = true ∧ s.station = .unstarted ∧ t.station = .listening) ∧
      (t.turn ≠ s.turn → restarts c s = true ∨ isOutcome c = true)

/-- The station state changes only as the table of R150 lists. The premise is that of R156: a station that has not joined has nothing to
apply. -/
def Obligations.StationStateMovesAsListed : Prop :=
  ∀ (c : Instr) (s t : State), JoiningHolds s → exec c s = .next t → t.station ≠ s.station →
    (releases c = true ∧ t.station = .unstarted) ∨
      (starts c s = true ∧ s.station = .unstarted ∧ t.station = .listening) ∨
      (s.station = .listening ∧ t.station = .active ∧ t.joinWatch = 4 ∧ t.helloPending = true) ∨
      (s.station = .active ∧ t.station = .contained ∧ t.contain.flag = true) ∨
      ((s.station = .listening ∨ s.station = .active) ∧ isOutcome c = true ∧ t.station = .offline) ∨
      (restarts c s = true ∧ t.station = .listening)

/-- What stands until a reset (R142, R144, R148): the containment flag with its cause, and the state CONTAINED, until RESTART or hardware reset;
the records of the fault log and the overflow count until CLEAR_FAULTS or hardware reset, and no record changes in a log of 4. -/
def Obligations.FaultsStandUntilReset : Prop :=
  ∀ (c : Instr) (s t : State), exec c s = .next t → releases c = false →
    (restarts c s = false →
      (s.contain.flag = true → t.contain.flag = true ∧ t.contain.cause = s.contain.cause) ∧
        (s.station = .contained → t.station = .contained)) ∧
    (clears c s = false →
      s.contain.log <+: t.contain.log ∧ s.contain.overflow ≤ t.contain.overflow ∧
        (s.contain.log.length = 4 → t.contain.log = s.contain.log))

/-! ## Laws that every step keeps -/

/-- The counts stay in their ranges (R17, R18, R30, R60, R116, R144, R157, R175). -/
def Obligations.CountsKept : Prop := ∀ s t : State, Counts s → step s = .next t → Counts t

/-- The send queue, the inbound queue and the request budget stay in their bounds (R38, R94, R172). -/
def Obligations.BudgetKept : Prop := ∀ s t : State, LandingAgrees s → Capacity s → step s = .next t → Capacity t

/-- One unread station notice of a kind at most; a signal is UNREAD exactly while its one notice is in the queue (R116, R120, R174, R178). -/
def Obligations.NoticesKept : Prop :=
  ∀ s t : State, UnstartedHolds s → NoticesOnce s → SignalsAgree s → step s = .next t → NoticesOnce t ∧ SignalsAgree t

/-- The completion queue never holds more than 64 records, since the three bounds of R174 add up, and so the STATUS word shows every count in
full, beside the station state, the strap number, the class and the policy (R174, R181, TABLE 11-14); in UNSTARTED the class and policy bits
are 0 (R153). The two STATUS words of the window read as it (R166, TABLE 11-6). -/
def Obligations.CountsFitTheStatusWord : Prop :=
  ∀ s : State, Counts s → Capacity s → NoticesOnce s → SignalsAgree s →
    s.completions.length ≤ 64 ∧
      (s.held = false → s.readWindow 0x7C = s.statusWord0 ∧ s.readWindow 0x80 = s.statusWord1) ∧
      (bits s.statusWord0 0 3, s.station) ∈ stationCodes ∧ bits s.statusWord0 3 4 = s.strap.toNat ∧
      (∀ c, s.config = some c →
        bits s.statusWord0 7 1 = (if c.cls = .high then 1 else 0) ∧ bits s.statusWord0 8 1 = (if c.policy = .halt then 1 else 0)) ∧
      (UnstartedHolds s → s.station = .unstarted → bits s.statusWord0 7 2 = 0) ∧
      bits s.statusWord0 9 6 = s.sendQueue.length ∧ bits s.statusWord0 15 4 = s.slotsInUse ∧
      bits s.statusWord0 19 5 = s.inbound.length ∧ bits s.statusWord0 24 7 = s.completions.length ∧
      bits s.statusWord1 0 3 = s.contain.log.length ∧ bits s.statusWord1 8 8 = s.contain.overflow ∧
      bits s.statusWord1 16 8 = s.span.voidRun ∧ bits s.statusWord1 24 8 = s.turn.repair

/-- The apply engine, the path and the return list go on agreeing, the entry in progress stays the head of the inbound queue, and a station
held in reset has an IDLE engine and no access but an abandoned one (R99 to R101, R103, R104, R106, R112, R114, R151; log 8 for the held
station). -/
def Obligations.EngineKept : Prop :=
  ∀ s t : State, RoundAgrees s → ContainedHolds s → HeldHolds s → EngineAgrees s → HeadAgrees s → step s = .next t →
    EngineAgrees t ∧ HeadAgrees t ∧ HeldHolds t

/-- The round, the candidate and the in-flight marks go on agreeing (R2, R3, R6, R7, R43, R107), and so does what an answer window leaves frozen:
an entry or a RETURN, never a broadcast (R9, R10, R11). -/
def Obligations.RoundKept : Prop :=
  ∀ s t : State, RoundAgrees s → step s = .next t → RoundAgrees t ∧ (CandidateAgrees s → CandidateAgrees t)

/-- The containment flag, its cause, the station state and the pending CONTAIN go on agreeing, and a CONTAINED station holds what R54, R89 and
R104 leave it (R128, R131, R135, R137, R142). -/
def Obligations.ContainmentKept : Prop :=
  ∀ s t : State, EngineAgrees s → RoundAgrees s → CandidateAgrees s → ContainmentAgrees s → PendingAgrees s → ContainedHolds s →
    step s = .next t → ContainmentAgrees t ∧ PendingAgrees t ∧ ContainedHolds t

/-- The SELF entry stays that of the strap number, and a retry timer runs exactly while its entry is WAITING (R60, R66, R73). -/
def Obligations.ReachTableKept : Prop := ∀ s t : State, ReachAgrees s → step s = .next t → ReachAgrees t

/-- A slot is LANDING exactly while its landing runs or waits, and the tag of the FETCH in flight names a FREE slot (R42, R78, R83, R84). -/
def Obligations.FetchTableKept : Prop :=
  ∀ s t : State, TagsAgree s → LandingAgrees s → step s = .next t → TagsAgree t ∧ LandingAgrees t

/-- A HOLDING slot or a provisional entry is held only while this station drives TAKEN, one at a time (R77, R94, R97, R98). -/
def Obligations.HoldingKept : Prop := ∀ s t : State, HoldingAgrees s → step s = .next t → HoldingAgrees t

/-- A fetch waits only for a REACHABLE or WAITING station, and no entry or RETURN waits for one that is closed (R52, R71, R106). -/
def Obligations.ClosedStationsHaveNothingWaiting : Prop :=
  ∀ s t : State, RoundAgrees s → ReachAgrees s → HoldingAgrees s → WaitsAgree s → LanesAgree s → step s = .next t →
    WaitsAgree t ∧ LanesAgree t

/-- An UNSTARTED station keeps its reset values, and a LISTENING one has nothing to apply, to answer or to land (R153, R156; log 17
for the fields of a FREE slot). -/
def Obligations.JoiningKept : Prop :=
  ∀ s t : State, RoundAgrees s → UnstartedHolds s → JoiningHolds s → step s = .next t → UnstartedHolds t ∧ JoiningHolds t

/-! ## The turn unit and the parcel outcome -/

/-- The owner by R24 and R25: with the settle flag set the lowest caller; otherwise the first LOW caller from LP + 1 if one is owed and calls,
else the first HIGH caller from HP + 1 if one calls, else the first LOW caller from LP + 1. A picture that is not empty has an owner, and it is
a caller (R26). -/
def Obligations.GrantFollowsCases : Prop :=
  ∀ (r : TurnRecord) (picture : StationSet) (o : Station),
    let lows := picture &&& ~~~r.stamp.high
    let highs := picture &&& r.stamp.high
    (grant r picture = some o ↔
      if r.settle then FirstFrom 0 picture o
      else if r.stamp.lo ∧ lows ≠ 0 then FirstFrom (r.stamp.lp + 1) lows o
      else if highs ≠ 0 then FirstFrom (r.stamp.hp + 1) highs o
      else FirstFrom (r.stamp.lp + 1) lows o) ∧
    (grant r picture = some o → StationSet.has picture o = true) ∧ (picture ≠ 0 → (grant r picture).isSome = true)

/-- The turn record after a good parcel, another station's or the one this station sent (R27 to R31): the stamp with the grant update of a HIGH or
a LOW sender, the class that a HELLO announces in the sender's entry, the settle flag clear, and the repair count raised exactly when the stamp
differed. An outcome taken before PARCEL_WINDOW is the model's choice (log 4). -/
def Obligations.AdoptionOnGoodParcel : Prop :=
  ∀ (s : State) (picture : StationSet) (settle : Bool) (w0 w1 : Word) (words : List Word) (n : Station) (st : Stamp),
    Carries w0 w1 n st →
    (Receives s picture settle ∧ s.strap.toNat ≠ n.val ∨
      s.takesPart = true ∧ s.span.phase = .parcel settle (some { header0 := w0, header1 := w1, body := words })) →
    ∃ t, exec (.parcelOutcome (.intact w0 w1 words)) s = .next t ∧ t.turn.settle = false ∧
      t.turn.repair = (if s.turn.stamp = st then s.turn.repair else if s.turn.repair < 255 then s.turn.repair + 1 else s.turn.repair) ∧
      (StationSet.has st.high n = true →
        t.turn.stamp.hp = n ∧ t.turn.stamp.lp = st.lp ∧ t.turn.stamp.lo = (st.lo || decide (n ≤ st.hp))) ∧
      (StationSet.has st.high n = false →
        t.turn.stamp.hp = st.hp ∧ t.turn.stamp.lp = n ∧ t.turn.stamp.lo = false) ∧
      ∀ m, StationSet.has t.turn.stamp.high m =
        (match announced (carried w0 w1 words) with
          | some cls => if m = n then decide (cls = .high) else StationSet.has st.high m
          | none => StationSet.has st.high m)

/-- Two stations that take part in a round with a good parcel hold the same record after it, whatever they held before, and so compute the same
owner from every call picture (R29, R34). The second may be a receiver or the one that sent the parcel (log 4 for an outcome taken before
PARCEL_WINDOW). -/
def Obligations.StationsAgreeAfterGoodParcel : Prop :=
  ∀ (s₁ s₂ t₁ t₂ : State) (p₁ p₂ : StationSet) (f₁ f₂ : Bool) (w0 w1 : Word) (words : List Word) (n : Station) (st : Stamp),
    Carries w0 w1 n st → Receives s₁ p₁ f₁ → s₁.strap.toNat ≠ n.val →
    (Receives s₂ p₂ f₂ ∧ s₂.strap.toNat ≠ n.val ∨
      s₂.takesPart = true ∧ s₂.span.phase = .parcel f₂ (some { header0 := w0, header1 := w1, body := words })) →
    exec (.parcelOutcome (.intact w0 w1 words)) s₁ = .next t₁ → exec (.parcelOutcome (.intact w0 w1 words)) s₂ = .next t₂ →
    t₁.turn.stamp = t₂.turn.stamp ∧ t₁.turn.settle = false ∧ t₂.turn.settle = false ∧
      ∀ picture, grant t₁.turn picture = grant t₂.turn picture

/-- A good parcel that is no well-formed HELLO or CONTAIN: the record adopts, the sender is heard, and both counts of the span unit go to 0. At
another station the round goes on to its answer window or ends (R9, R10, R12, R17, R18, R62, R66, R157, R184; log 4 for an outcome taken before
PARCEL_WINDOW); the sender keeps its entry or its RETURN frozen through the answer window (R11). Nothing else changes. The call mark is cleared at
the round's end by the model's choice (log 15). -/
def Obligations.GoodParcelIsHeard : Prop :=
  ∀ (s : State) (picture : StationSet) (settle : Bool) (w0 w1 : Word) (words : List Word) (n : Station) (st : Stamp),
    Carries w0 w1 n st → plain (carried w0 w1 words) = true →
    let h := readHeader w0 w1
    let s' : State :=
      { s with span := good s.span, turn := adopt s.turn st n none, reach := s.reach.set n.val (heardEntry (s.reachOf n) h.room) }
    (Receives s picture settle → s.strap.toNat ≠ n.val →
      exec (.parcelOutcome (.intact w0 w1 words)) s =
        .next
          (if windowFollows h then
            { s' with
              span := { good s.span with
                phase := .answer (if h.dest = s.strap.toNat then (carried w0 w1 words).map fun b => (n, b) else none) none } }
          else counted { s' with span := ended (good s.span) })) ∧
    (s.takesPart = true → s.span.phase = .parcel settle (some { header0 := w0, header1 := w1, body := words }) →
      s.source? = some .sendQueue ∨ s.source? = some .returnList → windowFollows h = true →
      exec (.parcelOutcome (.intact w0 w1 words)) s = .next { s' with span := { good s.span with phase := .answer none none } })

/-- A HELLO heard (R70, R87): the entry is REACHABLE from any state; unless it was UNKNOWN, the AWAITING slots for the sender end with
DEST_RESTARTED and PEER_RESTARTED is handed on. Lanes and RETURNs stay. The fields of a FREE slot, and an outcome taken before PARCEL_WINDOW, are
the model's choices (logs 17 and 4). The call mark is cleared at the round's end by the model's choice (log 15). -/
def Obligations.HelloRestartsPeer : Prop :=
  ∀ (s : State) (picture : StationSet) (settle : Bool) (w0 w1 : Word) (words : List Word) (n : Station) (st : Stamp)
    (cls : StationClass) (policy : Policy),
    Receives s picture settle → Carries w0 w1 n st → s.strap.toNat ≠ n.val → (s.reachOf n).state ≠ .self →
    carried w0 w1 words = some (.hello cls policy) →
    ∃ t, exec (.parcelOutcome (.intact w0 w1 words)) s = .next t ∧
      t = counted { s with
        span := ended (good s.span), turn := adopt s.turn st n (some cls), reach := t.reach, slots := t.slots
        completions := t.completions, choices := t.choices } ∧
      t.reachOf n = { state := .reachable, silence := 0, timer := .stopped } ∧ (∀ d, d ≠ n → t.reachOf d = s.reachOf d) ∧
      ((s.reachOf n).state = .unknown → t.slots = s.slots ∧ t.completions = s.completions) ∧
      ((s.reachOf n).state ≠ .unknown →
        (∀ i, t.slot i = if (s.slot i).state = .awaiting ∧ (s.slot i).dest = n then freeSlot else s.slot i) ∧
        AppendsGroups s.completions t.completions [slotFailures s n .destRestarted, [.station .peerRestarted 1 n.val]])

/-- A CONTAIN heard that does not name this station (R67, R69, R71). HALTED, from a peer not CONTAINED: the entry is CONTAINED, the lane and the
AWAITING slots fail with DEST_CONTAINED, the RETURNs not in flight are dropped, an engine in ROOM_WAIT goes on, PEER_HALTED is handed on. HALTED,
from a CONTAINED one: the hearing only. REPORTED: the hearing and PEER_FAULTED. The fields of a FREE slot, and an outcome taken before
PARCEL_WINDOW, are the model's choices (logs 17 and 4). The call mark is cleared at the round's end by the model's choice (log 15). -/
def Obligations.ContainClosesPeer : Prop :=
  ∀ (s : State) (picture : StationSet) (settle : Bool) (w0 w1 : Word) (words : List Word) (n : Station) (st : Stamp)
    (mode : ContainMode) (cause : FaultCause) (named : StationSet) (addr : Word) (length : Nat),
    Receives s picture settle → Carries w0 w1 n st → s.strap.toNat ≠ n.val → (s.reachOf n).state ≠ .self →
    carried w0 w1 words = some (.contain mode cause named addr length) → s.namedBy named = false →
    ∃ t, exec (.parcelOutcome (.intact w0 w1 words)) s = .next t ∧
      t = counted { s with
        span := ended (good s.span), turn := adopt s.turn st n none, reach := t.reach, slots := t.slots, sendQueue := t.sendQueue
        returns := t.returns, engine := t.engine, path := t.path, completions := t.completions, choices := t.choices } ∧
      (∀ d, d ≠ n → t.reachOf d = s.reachOf d) ∧
      (mode = .halted → (s.reachOf n).state ≠ .contained →
        t.reachOf n = haltedEntry ∧ t.sendQueue = s.sendQueue.filter (fun e => e.dest != n) ∧
        SlotsEnd s t (fun f => f.dest = n) ∧ t.returns = s.returns.filter (fun r => r.inFlight || r.requester != n) ∧
        RoomFreed s t ∧
        AppendsGroups s.completions t.completions
          [laneRecords .destContained (s.lane n), slotFailures s n .destContained, [.station .peerHalted 1 n.val]]) ∧
      (mode = .halted → (s.reachOf n).state = .contained →
        t = counted { s with
          span := ended (good s.span), turn := adopt s.turn st n none
          reach := s.reach.set n.val { s.reachOf n with silence := 0 } }) ∧
      (mode = .reported →
        t = counted { s with
          span := ended (good s.span), turn := adopt s.turn st n none
          reach := s.reach.set n.val (heardEntry (s.reachOf n) (readHeader w0 w1).room)
          completions := push s.completions (.station .peerFaulted 1 n.val) })

/-- A CONTAIN heard that names this station (R140, R141, R144), beside what its mode does to the sender's entry, lane, slots and RETURNs (R67, R69,
R71): POST_LOST in every case; containment of an ACTIVE HALT station whose flag is clear, with its cause, its record, its HALTED CONTAIN and the
LOCAL_CONTAINED groups (R54, R89, R104, R135); a record alone at an ACTIVE REPORT station and in LISTENING; nothing more in CONTAINED. Where the
CONTAIN also closes its sender, the entries, the slots and the engine may meet the closing or the containment first: the model leaves that order
free (log 3), so that an engine in ROOM_WAIT is STOPPED, or has first asked a FREE path for the read for which the dropped RETURNs make room. The
fields of a FREE slot, and an outcome taken before PARCEL_WINDOW, are the model's choices (logs 17 and 4). The call mark is cleared at the round's
end by the model's choice (log 15). -/
def Obligations.ContainNamesStation : Prop :=
  ∀ (s : State) (picture : StationSet) (settle : Bool) (w0 w1 : Word) (words : List Word) (n : Station) (st : Stamp)
    (mode : ContainMode) (cause : FaultCause) (named : StationSet) (addr : Word) (length : Nat),
    Receives s picture settle → Carries w0 w1 n st → s.strap.toNat ≠ n.val →
    carried w0 w1 words = some (.contain mode cause named addr length) → s.namedBy named = true →
    let record (halted : Bool) : FaultRecord :=
      { cause := .implicated, peer := n, addr := addr, length := length, halted := halted }
    let contained : Prop := s.station = .active ∧ s.policy = .halt ∧ s.contain.flag = false
    let recorded : Prop := s.station = .active ∧ s.policy = .report ∨ s.station = .listening
    let lost : List Completion := [.station .postLost 1 n.val]
    let told : List Completion :=
      if closes s n mode then [.station .peerHalted 1 n.val]
      else if mode = .reported ∧ (s.reachOf n).state ≠ .self then [.station .peerFaulted 1 n.val]
      else []
    let others : List SendEntry := s.sendQueue.filter fun e => e.dest != n
    ∃ t, exec (.parcelOutcome (.intact w0 w1 words)) s = .next t ∧
      t.reach = s.reach.set n.val
        (if closes s n mode then haltedEntry else heardEntry (s.reachOf n) (readHeader w0 w1).room) ∧
      t.returns =
        (if closes s n mode then s.returns.filter (fun r => r.inFlight || r.requester != n) else s.returns) ∧
      (¬ contained →
        t = counted { s with
          span := ended (good s.span), turn := adopt s.turn st n none, sendQueue := t.sendQueue, reach := t.reach, slots := t.slots
          returns := t.returns, engine := t.engine, path := t.path, contain := t.contain, completions := t.completions
          choices := t.choices } ∧
        (recorded → t.contain = logged s.contain (record false)) ∧ (¬ recorded → t.contain = s.contain) ∧
        (closes s n mode = true →
          t.sendQueue = others ∧ SlotsEnd s t (fun f => f.dest = n) ∧ RoomFreed s t ∧
          AppendsGroups s.completions t.completions
            [laneRecords .destContained (s.lane n), slotFailures s n .destContained, told, lost]) ∧
        (closes s n mode = false →
          t.sendQueue = s.sendQueue ∧ t.slots = s.slots ∧ t.engine = s.engine ∧ t.path = s.path ∧
          AppendsGroups s.completions t.completions [told, lost])) ∧
      (contained →
        t = { s with
          station := .contained, span := ended (good s.span), turn := adopt s.turn st n none, sendQueue := t.sendQueue
          reach := t.reach, slots := t.slots, returns := t.returns, engine := t.engine, path := t.path
          contain := { logged s.contain (record true) with
            flag := true, cause := some .implicated, late := 0
            pendingContain := some { mode := .halted, cause := .implicated, named := 0, addr := addr, length := length } }
          completions := t.completions, choices := t.choices } ∧
        SlotsEnd s t (fun _ => True) ∧
        (s.engine = .inAccess → t.engine = .inAccess ∧ t.path = s.path) ∧
        (s.engine ≠ .inAccess → closes s n mode = false ∨ s.engine ≠ .roomWait →
          t.engine = .stopped ∧ t.path = { s.path with applyWaiting := none }) ∧
        (s.engine = .roomWait → closes s n mode = true →
          t.engine = .stopped ∧ t.path = { s.path with applyWaiting := none } ∨
            s.path.state = .free ∧ t.returns.length < 8 ∧
              ∃ a, headAccess s = some a ∧ t.engine = .inAccess ∧ t.path = (asks s a).path) ∧
        (closes s n mode = true →
          t.sendQueue = others.filter (·.inFlight) ∧
          ∃ sends ∈
              [[laneRecords .destContained (s.lane n), sendFlush others],
                [sendFlush s.sendQueue, laneRecords .destContained ((s.lane n).filter (·.inFlight))]],
            ∃ slots ∈ [[slotFailures s n .destContained, slotFlush s (· == n)], [slotFlush s fun _ => false]],
              AppendsGroups s.completions t.completions (sends ++ slots ++ [told, lost])) ∧
        (closes s n mode = false →
          t.sendQueue = s.sendQueue.filter (·.inFlight) ∧
          AppendsGroups s.completions t.completions [sendFlush s.sendQueue, slotFlush s fun _ => false, told, lost]))

/-- A VOID or ABSENT outcome at a station that did not transmit (R8, R17, R33): the settle flag is set, the void-run count rises, SPAN_UNSTEADY is
handed on at the rise from 7 to 8, and the round ends. Nothing else changes (log 4 for an outcome taken before PARCEL_WINDOW). The call mark is
cleared at the round's end by the model's choice (log 15). -/
def Obligations.VoidRoundSetsSettle : Prop :=
  ∀ (s : State) (picture : StationSet) (settle : Bool) (report : LineReport),
    Receives s picture settle → report = .empty ∨ report = .garbled →
    exec (.parcelOutcome report) s =
      .next { s with
        span := { ended s.span with voidRun := if s.span.voidRun < 255 then s.span.voidRun + 1 else s.span.voidRun }
        turn := { s.turn with settle := true }
        completions :=
          if s.span.voidRun = 7 then push s.completions (.station .spanUnsteady 1 8) else s.completions }

/-- The owner of a VOID or ABSENT round (R8, R11, R17, R18, R20, R33): the settle flag is set, the void-run count rises, SPAN_UNSTEADY is handed
on at the rise from 7 to 8, and its candidate is released. An entry stays, with nothing changed but its tag and its mark (R43), or leaves
with LOCAL_CONTAINED in CONTAINED (R55); a RETURN is an ordinary member again (R107); a CONTAIN stays pending with its late sources emptied
(R131); a HELLO stays pending. With the settle flag set at call close a VOID raises the settle-collision count, and at 4 an ACTIVE station is
OFFLINE and a CONTAINED one is barred, with WENT_OFFLINE. Nothing else changes. The order of the records that one outcome hands on is left free
(logs 2 and 22); the counts that OFFLINE keeps (log 14) and an ABSENT outcome at the owner (log 12) are the model's inferences, and the point at
which a round's end clears the call mark is its choice (log 15). -/
def Obligations.SettleCollisionsEndOffline : Prop :=
  ∀ (s : State) (settle : Bool) (w : ParcelWords) (report : LineReport),
    s.takesPart = true → s.span.phase = .parcel settle (some w) → s.station ≠ .listening → s.span.settleCollision ≤ 3 →
    report = .garbled ∨ report = .empty →
    let collides : Bool := settle && report == .garbled
    let fourth : Bool := collides && s.span.settleCollision == 3
    let leaves : Bool := s.source? == some .sendQueue && s.station == .contained
    let offline : Bool := fourth && s.station == .active
    ∃ t, exec (.parcelOutcome report) s = .next t ∧
      t = { s with
        station := if offline then .offline else s.station
        span := { ended s.span with
          voidRun := if s.span.voidRun < 255 then s.span.voidRun + 1 else s.span.voidRun
          settleCollision := if collides then s.span.settleCollision + 1 else s.span.settleCollision
          callBar := s.span.callBar || fourth && s.station == .contained }
        turn := { s.turn with settle := true }
        sendQueue :=
          if leaves then s.sendQueue.filter fun e => !e.inFlight
          else if s.source? == some .sendQueue || offline then s.sendQueue.map fun e => if e.inFlight then e.release else e
          else s.sendQueue
        returns :=
          if s.source? == some .returnList || offline then s.returns.map fun r => { r with inFlight := false } else s.returns
        contain := if s.source? == some .contain then { s.contain with late := 0 } else s.contain
        completions := t.completions, choices := t.choices } ∧
      AppendsGroups s.completions t.completions
        [if s.span.voidRun = 7 then [.station .spanUnsteady 1 8] else [],
          if leaves then (s.sendQueue.filter (·.inFlight)).map fun e => e.record .localContained else [],
          if fourth then [.station .wentOffline 1 1] else []]

/-- This station's own number heard in a round in which it did not transmit (R19, R20, R32): LISTENING and ACTIVE go OFFLINE at once and leave the
round, with the entries and the RETURNs that they hold released and kept (R56, R111, R161); CONTAINED bars its calls and answers, and its round goes
on to the answer window that R10 gives, in which it drives nothing, or ends. WENT_OFFLINE is handed on, and nothing is adopted or booked. That both
counts are 0 afterwards is the model's inference (log 14), and an outcome taken before PARCEL_WINDOW and the point at which the call mark is cleared
its choices (logs 4 and 15). -/
def Obligations.OwnNumberIsADuplicate : Prop :=
  ∀ (s : State) (picture : StationSet) (settle : Bool) (w0 w1 : Word) (words : List Word) (n : Station) (st : Stamp),
    Receives s picture settle → Carries w0 w1 n st → s.strap.toNat = n.val →
    let told := push s.completions (.station .wentOffline 1 1)
    (s.station ≠ .contained →
      exec (.parcelOutcome (.intact w0 w1 words)) s =
        .next { s with
          station := .offline, span := ended (good s.span), completions := told
          sendQueue := s.sendQueue.map fun e => if e.inFlight then e.release else e
          returns := s.returns.map fun r => { r with inFlight := false } }) ∧
    (s.station = .contained →
      exec (.parcelOutcome (.intact w0 w1 words)) s =
        .next { s with
          completions := told
          span :=
            if windowFollows (readHeader w0 w1) then { good s.span with phase := .answer none none, callBar := true }
            else { ended (good s.span) with callBar := true } })

/-- Rounds that only count for the join watch: an IDLE round (R8); a round whose good parcel names no station in its sender field or in its
stamp's pointers (R10, R32, R185), which also sets both counts of the span unit to 0; and, at its answer close, a round in which this station
neither sent the parcel nor holds anything for an answer, whatever the answer was: a third station (R13), or an addressed one in LISTENING or
with its answers barred, which left the window empty (R12, R20). The fourth counted round makes a LISTENING station ACTIVE with its HELLO pending
(R157, R158). Nothing else changes. That an empty picture's outcome is IDLE whatever the window held is the model's inference (log 12). An
outcome taken before PARCEL_WINDOW, and an answer close at an addressed station that was given no ANSWER_WINDOW, are its choices (log 4), and
so is the point at which a round's end clears the call mark (log 15). An ANSWER_WINDOW at a third station changes nothing (R12). -/
def Obligations.RoundsThatOnlyCount : Prop :=
  (∀ (s : State) (owned settle : Bool) (report : LineReport),
    s.takesPart = true → s.span.phase = .closed 0 owned settle →
    exec (.parcelOutcome report) s = .next (counted { s with span := ended s.span })) ∧
  (∀ (s : State) (picture : StationSet) (settle : Bool) (w0 w1 : Word) (words : List Word),
    Receives s picture settle →
    12 ≤ (readHeader w0 w1).sender ∨ 12 ≤ (readHeader w0 w1).hp ∨ 12 ≤ (readHeader w0 w1).lp →
    exec (.parcelOutcome (.intact w0 w1 words)) s = .next (counted { s with span := ended (good s.span) })) ∧
  ∀ (s : State) (ask : Option (Station × Body)) (driven : Option AnswerCode),
    s.takesPart = true → s.span.phase = .answer ask driven →
    (ask = none → driven = none → exec .answerWindow s = .next s) ∧
    (ask = none ∨ s.station = .listening ∨ s.span.callBar = true → s.span.candidate = none →
      (∀ e ∈ s.inbound, e.provisional = false) → (∀ k, (s.slot k).state ≠ .holding) →
      (s.engine = .idle → s.inbound = [] ∨ s.station = .contained) →
      ∀ report, exec (.answerClose report) s = .next (counted { s with span := ended s.span }))

/-- A broadcast of this station's own sent in a good parcel (R9, R31, R131, R137, R159): a HELLO is no longer pending, and this station adopts its
own stamp with the class it announced; of a CONTAIN nothing is left pending, but a new one of the late sources, or the HALTED one that replaced it
meanwhile. The repair count, the reach table and the completion queue do not change. That the parcel heard is the one sent, whatever words the
command brings, is the model's inference (log 12). The call mark is cleared at the round's end by the model's choice (log 15). -/
def Obligations.HelloIsSentOnce : Prop :=
  ∀ (s : State) (n : Station) (settle : Bool) (report0 report1 : Word) (words : List Word),
    s.takesPart = true → s.strap.toNat = n.val → (s.reachOf n).state = .self →
    let sends (c : Candidate) : Prop :=
      s.span.candidate = some c ∧ s.span.phase = .parcel settle (some (s.transmission c))
    (∀ cls policy, sends { source := .hello, dest := 15, body := .hello cls policy } →
      ∃ t, exec (.parcelOutcome (.intact report0 report1 words)) s = .next t ∧
        t = counted { s with span := ended (good s.span), turn := t.turn, helloPending := false } ∧
        t.turn.repair = s.turn.repair ∧ t.turn.settle = false ∧ StationSet.has t.turn.stamp.high n = decide (cls = .high)) ∧
    (∀ mode cause named addr length, sends { source := .contain, dest := 15, body := .contain mode cause named addr length } →
      1 ≤ length → length ≤ 16 → s.namedBy named = false →
      let left (pending : Option PendingContain) : State :=
        counted { s with
          span := ended (good s.span), turn := adopt s.turn s.turn.stamp n none
          contain := { s.contain with pendingContain := pending, late := 0 } }
      ∀ p, s.contain.pendingContain = some p →
        (p.mode = mode → s.contain.late = 0 →
          exec (.parcelOutcome (.intact report0 report1 words)) s = .next (left none)) ∧
        (p.mode = .reported → mode = .reported → s.contain.late ≠ 0 →
          exec (.parcelOutcome (.intact report0 report1 words)) s = .next (left (some { p with named := s.contain.late }))) ∧
        (p.mode = .halted → mode = .reported →
          exec (.parcelOutcome (.intact report0 report1 words)) s = .next (left (some p))))

/-! ## Round mark, call close, parcel window and the words on the line -/

/-- The transmit selector's order (R3, R4): the pending CONTAIN, the pending HELLO, the oldest RETURN to a station that is neither UNREACHABLE nor
CONTAINED; in CONTAINED only the first and the third; nothing with calls barred or in LISTENING. What is offered is frozen and the station
calls; a HALTED CONTAIN names the sources of the POSTs held (R138). -/
def Obligations.SelectorOffersInOrder : Prop :=
  ∀ s : State,
    (∀ p, Selects s → s.contain.pendingContain = some p →
      exec .roundMark s =
        .next { s with span := calls s.span { source := .contain, dest := 15, body := s.containBody p } } ∧
      (p.mode = .reported → s.containBody p = .contain .reported p.cause p.named p.addr p.length) ∧
      (p.mode = .halted → ∃ named, s.containBody p = .contain .halted p.cause named p.addr p.length ∧
        ∀ n, StationSet.has named n = true ↔ ∃ e ∈ s.inbound, e.source = n ∧ ∃ addr data, e.op = .post addr data)) ∧
    (Selects s → s.contain.pendingContain = none → s.helloPending = true → s.station = .active →
      exec .roundMark s =
        .next { s with span := calls s.span { source := .hello, dest := 15, body := .hello s.cls s.policy } }) ∧
    (∀ older r younger, Selects s → s.contain.pendingContain = none → s.helloPending = false ∨ s.station = .contained →
      s.returns = older ++ r :: younger → (∀ x ∈ older, s.offersReturn x = false) → s.offersReturn r = true →
      exec .roundMark s =
        .next { s with
          returns := older ++ { r with inFlight := true } :: younger
          span := calls s.span
            { source := .returnList, dest := destField r.requester, body := .ret ⟨r.tag.val, by omega⟩ r.result } }) ∧
    (Selects s → s.contain.pendingContain = none → s.station = .contained → (∀ x ∈ s.returns, s.offersReturn x = false) →
      exec .roundMark s = .next { s with span := { s.span with phase := .calling } }) ∧
    (s.takesPart = true → s.span.phase = .none → s.station = .listening ∨ s.span.callBar = true →
      exec .roundMark s = .next { s with span := { s.span with phase := .calling } })

/-- With no CONTAIN, HELLO or RETURN to offer, an ACTIVE station offers the oldest eligible entry, and nothing when none is (R4, R41, R42): the
entry is marked in flight, a FETCH with the lowest FREE slot as its tag, and its body is frozen. -/
def Obligations.OldestEligibleEntryIsOffered : Prop :=
  ∀ s : State, Selects s → s.station = .active → s.contain.pendingContain = none → s.helloPending = false →
    (∀ x ∈ s.returns, s.offersReturn x = false) →
    (∀ older e younger, s.sendQueue = older ++ e :: younger → Eligible s older e →
      (∀ a x b, older = a ++ x :: b → ¬ Eligible s a x) →
      exec .roundMark s =
        .next { s with
          sendQueue := older ++ e.freeze s.freeSlot? :: younger
          span := calls s.span
            { source := .sendQueue, dest := destField e.dest
              body := (match e.op with
                | .post addr data => .post addr data
                | .fetch addr length _ _ => .fetch addr length (s.freeSlot?.getD 0)
                | .signal k => .signal k) } }) ∧
    ((∀ older e younger, s.sendQueue = older ++ e :: younger → ¬ Eligible s older e) →
      exec .roundMark s = .next { s with span := { s.span with phase := .calling } }) ∧
    ∀ k, s.freeSlot? = some k ↔ (s.slot k).state = .free ∧ ∀ j, j < k → (s.slot j).state ≠ .free

/-- Call close (R6, R11, R43, R55, R131): the picture holds this station's own mark, added to the command's picture (log 13, the
model's inference); the station owns the round exactly when it called and
computes itself; otherwise its candidate is released. -/
def Obligations.CallCloseGrantsOrReleases : Prop :=
  ∀ (s : State) (n : Station) (picture : StationSet),
    s.takesPart = true → s.span.phase = .calling → s.strap.toNat = n.val →
    let p := if s.span.callMark then StationSet.add picture n else picture
    let lost : SpanUnit := { s.span with phase := .closed p false s.turn.settle, candidate := none }
    (s.span.callMark = true → grant s.turn p = some n →
      exec (.callClose picture) s = .next { s with span := { s.span with phase := .closed p true s.turn.settle } }) ∧
    (s.span.callMark = false ∨ grant s.turn p ≠ some n →
      (s.source? = none ∨ s.source? = some .hello → exec (.callClose picture) s = .next { s with span := lost }) ∧
      (s.source? = some .contain →
        exec (.callClose picture) s = .next { s with span := lost, contain := { s.contain with late := 0 } }) ∧
      (s.source? = some .returnList →
        exec (.callClose picture) s =
          .next { s with span := lost, returns := s.returns.map fun r => { r with inFlight := false } }) ∧
      (s.source? = some .sendQueue → s.station ≠ .contained →
        exec (.callClose picture) s =
          .next { s with span := lost, sendQueue := s.sendQueue.map fun e => if e.inFlight then e.release else e }) ∧
      (s.source? = some .sendQueue → s.station = .contained →
        exec (.callClose picture) s =
          .next { s with
            span := lost
            sendQueue := s.sendQueue.filter fun e => !e.inFlight
            completions := s.completions ++ (s.sendQueue.filter (·.inFlight)).map fun e => e.record .localContained }))

/-- The parcel window (R7): the owner transmits its frozen body under a header with its number, its room flag and its record's stamp as they
stand; every other station receives. -/
def Obligations.ParcelWindowSendsFrozenBody : Prop :=
  ∀ (s : State) (picture : StationSet) (settle : Bool) (c : Candidate),
    s.takesPart = true → picture ≠ 0 →
    (s.span.phase = .closed picture true settle → s.span.candidate = some c →
      ∃ w, exec .parcelWindow s = .next { s with span := { s.span with phase := .parcel settle (some w) } } ∧
        w.body = bodyWords c.body ∧
        readHeader w.header0 w.header1 =
          { kind := c.body.kindCode, sender := s.strap.toNat, dest := c.dest.val
            room := decide (s.inbound.length ≤ 12) && s.station != .contained
            lo := s.turn.stamp.lo, hp := s.turn.stamp.hp.val, lp := s.turn.stamp.lp.val, high := s.turn.stamp.high }) ∧
    (s.span.phase = .closed picture false settle →
      exec .parcelWindow s = .next { s with span := { s.span with phase := .parcel settle none } })

/-- What a parcel's words carry is what was put into them, for every header in range and every well-formed body, each field in the bits that TABLES
11-1 to 11-3 give it; the unassigned bits of its header and body words are sent as zero, and those of a received parcel are ignored (R183, R184). A
body is read from exactly the parcels that are not malformed. An answer is driven and read in the codes of TABLE 11-5, and the codes 0, 6 and 7 are
read as VOID (R186). -/
def Obligations.ParcelWordsCarryHeaderAndBody : Prop :=
  (∀ h : Header, h.kind < 16 → h.sender < 16 → h.dest < 16 → h.hp < 16 → h.lp < 16 →
    readHeader (headerWords h).1 (headerWords h).2 = h ∧
      bits (headerWords h).1 28 4 = h.kind ∧ bits (headerWords h).1 24 4 = h.sender ∧ bits (headerWords h).1 20 4 = h.dest ∧
      bits (headerWords h).1 19 1 = (if h.room then 1 else 0) ∧ bits (headerWords h).1 18 1 = (if h.lo then 1 else 0) ∧
      bits (headerWords h).1 12 4 = h.hp ∧ bits (headerWords h).1 8 4 = h.lp ∧ bits (headerWords h).2 0 12 = h.high.toNat ∧
      (headerWords h).1 &&& 0x000300FF#32 = 0 ∧ (headerWords h).2 &&& 0xFFFFF000#32 = 0) ∧
  (∀ b : Body,
    (match b with
      | .post _ data => 1 ≤ data.length ∧ data.length ≤ 16
      | .fetch _ length _ => 1 ≤ length ∧ length ≤ 16
      | .ret _ (.ok data) => 1 ≤ data.length ∧ data.length ≤ 16
      | .contain _ _ _ _ length => 1 ≤ length ∧ length ≤ 16
      | .signal _ | .ret _ .readError | .hello .. => True) →
    readBody b.kindCode (bodyWords b) = some b ∧ BodyLaidOut b.kindCode (bodyWords b) b ∧
      ∃ w rest, bodyWords b = w :: rest ∧ w &&& ~~~(assigned b.kindCode) = 0) ∧
  (∀ w0 w1 x0 x1 : Word, w0 &&& 0xFFFCFF00#32 = x0 &&& 0xFFFCFF00#32 → w1 &&& 0xFFF#32 = x1 &&& 0xFFF#32 →
    readHeader w0 w1 = readHeader x0 x1) ∧
  (∀ (kind : Nat) (w x : Word) (rest : List Word), w &&& assigned kind = x &&& assigned kind →
    readBody kind (w :: rest) = readBody kind (x :: rest)) ∧
  (∀ (kind : Nat) (words : List Word), readBody kind words = none ↔ Malformed kind words) ∧
  (∀ a : AnswerCode, (answerCode a, a) ∈ answerCodes) ∧ (∀ x ∈ answerCodes, readAnswer (.code x.1) = .good x.2) ∧
  ∀ c : BitVec 3, (∀ x ∈ answerCodes, x.1 ≠ c) → readAnswer (.code c) = .void

/-! ## Answers -/

/-- The answer to a POST, FETCH or SIGNAL (R12, R95, R96, R97): REFUSED in CONTAINED, else OUTSIDE for a range outside the window, else FULL
without a free place, else TAKEN with a provisional entry. A station in LISTENING, or one whose answers are barred, drives nothing (R12,
R20). -/
def Obligations.InboundAnswerByFirstRow : Prop :=
  ∀ (s : State) (n : Station) (b : Body) (op : InboundOp) (driven : Option AnswerCode),
    s.takesPart = true → s.span.phase = .answer (some (n, b)) driven →
    (∃ addr data, b = .post addr data ∧ op = .post addr data) ∨
      (∃ addr length tag, b = .fetch addr length tag ∧ op = .fetch addr length tag) ∨ (∃ k, b = .signal k ∧ op = .signal k) →
    let inside : Bool :=
      match op with
      | .post addr data => Claims.insideWindow s addr data.length
      | .fetch addr length _ => Claims.insideWindow s addr length
      | .signal _ => true
    let code : AnswerCode :=
      if s.station = .contained then .refused
      else if inside = false then .outside
      else if 16 ≤ s.inbound.length then .full
      else .taken
    (s.station ≠ .listening → s.span.callBar = false →
      exec .answerWindow s =
        .next { s with
          span := { s.span with phase := .answer none (some code) }
          inbound := if code = .taken then s.inbound ++ [{ op := op, source := n, provisional := true }] else s.inbound }) ∧
    (s.station = .listening ∨ s.span.callBar = true →
      exec .answerWindow s = .next { s with span := { s.span with phase := .answer none none } })

/-- The answer to a RETURN (R79, R80): TAKEN, with its result held, when the station is not CONTAINED and the tag names an AWAITING slot for the
sender whose length the data fit; STALE, with no slot changed, otherwise. A station in LISTENING, or one whose answers are barred, drives
nothing and changes no slot (R12, R20). -/
def Obligations.ReturnAnswerBySlot : Prop :=
  ∀ (s : State) (n : Station) (tag : Fin 16) (result : FetchResult) (driven : Option AnswerCode),
    s.takesPart = true → s.span.phase = .answer (some (n, .ret tag result)) driven →
    (s.station = .listening ∨ s.span.callBar = true →
      exec .answerWindow s = .next { s with span := { s.span with phase := .answer none none } }) ∧
    (s.span.callBar = false → ∀ k : SlotNo, k.val = tag.val → s.station = .active → (s.slot k).state = .awaiting → (s.slot k).dest = n →
      (∀ data, result = .ok data → data.length = (s.slot k).length) →
      exec .answerWindow s =
        .next { s with
          span := { s.span with phase := .answer none (some .taken) }
          slots := s.slots.set k.val { s.slot k with state := .holding, held := some result } }) ∧
    (s.station ≠ .listening → s.span.callBar = false →
      (s.station = .contained ∨ 8 ≤ tag.val ∨
        ∃ k : SlotNo, k.val = tag.val ∧
          ((s.slot k).state ≠ .awaiting ∨ (s.slot k).dest ≠ n ∨
            ∃ data, result = .ok data ∧ data.length ≠ (s.slot k).length)) →
      exec .answerWindow s = .next { s with span := { s.span with phase := .answer none (some .stale) } })

/-- A good TAKEN settles the in-flight entry (R40, R44, R63, R78): it leaves; a POST or SIGNAL with DONE if its report flag is set, a FETCH into the
slot its tag names, AWAITING with its timer running for the fetch timeout of the configuration's code (R59, TABLE 3-4; log 18 for a station without
a configuration). The call mark is cleared at the round's end by the model's choice (log 15). So is it that a slot which is not FREE is overwritten,
which no run reaches (log 18). -/
def Obligations.TakenEntryLeaves : Prop :=
  ∀ (s : State) (older : List SendEntry) (e : SendEntry) (younger : List SendEntry),
    Awaits s older e younger → s.station = .active →
    (∀ c, s.config = some c → fetchTimeouts[c.timeout.val]? = some s.fetchTimeout) ∧
    let s' : State :=
      { s with
        span := ended s.span, sendQueue := older ++ younger, reach := s.reach.set e.dest.val (bookedEntry (s.reachOf e.dest)) }
    (e.kind ≠ .fetch →
      exec (.answerClose (.code 1)) s =
        .next { s' with completions := if e.report then s.completions ++ [e.record .done] else s.completions }) ∧
    (∀ addr length landing k, e.op = .fetch addr length landing (some k) →
      exec (.answerClose (.code 1)) s =
        .next { s' with
          slots := s.slots.set k.val
            { state := .awaiting, dest := e.dest, landing := landing, length := length, cookie := e.cookie, held := none
              timer := .running s.fetchTimeout, deferred := false } })

/-- Answers after which the entry stays or its lane fails for its own sake (R45, R46, R47, R50, R51, R65): FULL below patience, FULL at patience,
OUTSIDE, STALE. The patience limit and the retry interval are those of the configuration's codes (R59, TABLE 3-4; log 18 for a station without a
configuration). That the tag of a FETCH which stays is emptied is the model's inference (log 16). The call mark is cleared at the round's end by the
model's choice (log 15). -/
def Obligations.FullOutsideAndStaleSettle : Prop :=
  ∀ (s : State) (older : List SendEntry) (e : SendEntry) (younger : List SendEntry),
    Awaits s older e younger → s.station = .active →
    (∀ c, s.config = some c → patienceLimits[c.patience.val]? = some s.patience ∧ retryIntervals[c.retry.val]? = some s.retryInterval) ∧
    let booked := bookedEntry (s.reachOf e.dest)
    let failed (status : Status) : State :=
      { s with
        span := ended s.span, sendQueue := older ++ younger.filter (fun x => x.dest != e.dest)
        reach := s.reach.set e.dest.val booked, completions := s.completions ++ failure status e younger }
    (e.fullCount + 1 < s.patience → booked.state = .reachable ∨ booked.state = .waiting →
      exec (.answerClose (.code 2)) s =
        .next { s with
          span := ended s.span
          sendQueue := older ++ { e.release with fullCount := e.fullCount + 1 } :: younger
          reach := s.reach.set e.dest.val { booked with state := .waiting, timer := .running s.retryInterval } }) ∧
    (s.patience ≤ e.fullCount + 1 → exec (.answerClose (.code 2)) s = .next (failed .fullExhausted)) ∧
    exec (.answerClose (.code 4)) s = .next (failed .outsideWindow) ∧
    exec (.answerClose (.code 5)) s =
      .next { s with
        span := ended s.span, sendQueue := older ++ e.release :: younger, reach := s.reach.set e.dest.val booked }

/-- REFUSED, and the third no-reply, close the destination (R48, R49, R52, R64, R68, R71), and an engine in ROOM_WAIT goes on (R103); fewer
no-replies leave the entry for the next round with the silence count raised. That the tag of a FETCH which stays is emptied is the model's
inference, and the fields of a FREE slot its choice (logs 16 and 17). The call mark is cleared at the round's end by the model's choice (log 15). -/
def Obligations.RefusedAndSilenceSettle : Prop :=
  ∀ (s : State) (older : List SendEntry) (e : SendEntry) (younger : List SendEntry) (report : AnswerReport),
    Awaits s older e younger → s.station = .active → canFallSilent (s.reachOf e.dest).state →
    let d := e.dest
    let lane (status : Status) : List Completion := failure status e younger
    ∃ t, exec (.answerClose report) s = .next t ∧
      (noReply report → (s.reachOf d).silence < 2 →
        t = { s with
          span := ended s.span, sendQueue := older ++ e.release :: younger
          reach := s.reach.set d.val { s.reachOf d with silence := (s.reachOf d).silence + 1 } }) ∧
      (noReply report ∧ 2 ≤ (s.reachOf d).silence ∨ report = .code 3 →
        t = { s with
          span := ended s.span, sendQueue := t.sendQueue, reach := t.reach, slots := t.slots, returns := t.returns
          engine := t.engine, path := t.path, completions := t.completions, choices := t.choices } ∧
        t.sendQueue = older ++ younger.filter (fun x => x.dest != d) ∧
        SlotsEnd s t (fun f => f.dest = d) ∧ t.returns = s.returns.filter (fun r => r.inFlight || r.requester != d) ∧
        RoomFreed s t ∧ (∀ x, x ≠ d → t.reachOf x = s.reachOf x) ∧
        (report ≠ .code 3 →
          t.reachOf d = silentEntry ∧
          AppendsGroups s.completions t.completions [lane .unreachable, slotFailures s d .unreachable]) ∧
        (report = .code 3 →
          t.reachOf d = haltedEntry ∧
          AppendsGroups s.completions t.completions
            [lane .destContained, slotFailures s d .destContained, [.station .peerHalted 1 d.val]]))

/-- The in-flight entry of a station that has entered CONTAINED leaves at its answer close in every case (R55): taken for a POST or SIGNAL on a good
TAKEN, with LOCAL_CONTAINED otherwise. The reach table acts on the answer as on any other (R63, R64, R68); where the lane, the slots and the engine
are as containment left them, nothing of them is reported but PEER_HALTED for a REFUSED. The call mark is cleared at the round's end by the model's
choice (log 15). -/
def Obligations.ContainedStationSettlesEntry : Prop :=
  ∀ (s : State) (older : List SendEntry) (e : SendEntry) (younger : List SendEntry),
    Awaits s older e younger → s.station = .contained →
    let d := e.dest
    let booked := s.reach.set d.val (bookedEntry (s.reachOf d))
    let kept : List ReturnEntry := s.returns.filter fun r => r.inFlight || r.requester != d
    let failed : State :=
      { s with
        span := ended s.span, sendQueue := older ++ younger, reach := booked
        completions := s.completions ++ [e.record .localContained] }
    (e.kind ≠ .fetch →
      exec (.answerClose (.code 1)) s =
        .next { failed with completions := if e.report then s.completions ++ [e.record .done] else s.completions }) ∧
    (e.kind = .fetch → exec (.answerClose (.code 1)) s = .next failed) ∧
    exec (.answerClose (.code 2)) s = .next failed ∧ exec (.answerClose (.code 4)) s = .next failed ∧
    exec (.answerClose (.code 5)) s = .next failed ∧
    (∀ report, report ≠ .code 1 →
      ∃ t, exec (.answerClose report) s = .next t ∧
        t = { s with
          span := ended s.span, sendQueue := t.sendQueue, reach := t.reach, slots := t.slots, returns := t.returns
          engine := t.engine, path := t.path, completions := t.completions, choices := t.choices } ∧
        (∀ x ∈ t.sendQueue, x.inFlight = false) ∧ e.record .localContained ∈ t.completions) ∧
    (ContainedHolds s →
      (∀ report, noReply report →
        (canFallSilent (s.reachOf d).state → 2 ≤ (s.reachOf d).silence →
          exec (.answerClose report) s =
            .next { failed with sendQueue := [], reach := s.reach.set d.val silentEntry, returns := kept }) ∧
        ((s.reachOf d).state ≠ .self → ¬ canFallSilent (s.reachOf d).state ∨ (s.reachOf d).silence < 2 →
          exec (.answerClose report) s =
            .next { failed with
              sendQueue := []
              reach := s.reach.set d.val { s.reachOf d with silence := min ((s.reachOf d).silence + 1) 3 } })) ∧
      ((s.reachOf d).state = .contained → exec (.answerClose (.code 3)) s = .next { failed with sendQueue := [] }) ∧
      ((s.reachOf d).state ≠ .contained → (s.reachOf d).state ≠ .self →
        ∃ t, exec (.answerClose (.code 3)) s = .next t ∧
          t = { failed with
            sendQueue := [], reach := s.reach.set d.val haltedEntry, returns := kept, completions := t.completions
            choices := t.choices } ∧
          AppendsGroups s.completions t.completions [[e.record .localContained], [.station .peerHalted 1 d.val]]))

/-- A provisional entry at its answer close (R98 to R102, R112): committed by a good TAKEN, discarded by anything else. An IDLE engine takes the
entry committed to an empty queue at once: it asks for the access of a POST or FETCH, or waits for room in the return list, and it raises a SIGNAL
(log 21 for the place of this act in the answer close). The call mark is cleared at the round's end by the model's choice (log 15). -/
def Obligations.ProvisionalEntryCommits : Prop :=
  ∀ (s : State) (older : List InboundEntry) (p : InboundEntry) (driven : Option AnswerCode) (report : AnswerReport),
    s.takesPart = true → s.span.phase = .answer none driven → s.span.candidate = none → s.station ≠ .listening →
    (∀ t, (s.slot t).state ≠ .holding) → s.inbound = older ++ [p] → (∀ x ∈ older, x.provisional = false) → p.provisional = true →
    (s.engine = .idle → older = []) →
    let committed : State := { s with span := ended s.span, inbound := older ++ [{ p with provisional := false }] }
    (report ≠ .code 1 → exec (.answerClose report) s = .next { s with span := ended s.span, inbound := older }) ∧
    (report = .code 1 → s.engine ≠ .idle ∨ s.station = .contained → exec (.answerClose report) s = .next committed) ∧
    (report = .code 1 → s.engine = .idle → s.station = .active →
      ((∀ k, p.op ≠ .signal k) → exec (.answerClose report) s = .next (nextHead committed)) ∧
      ∀ k, p.op = .signal k → exec (.answerClose report) s = .next (raised { committed with inbound := [] } k p.source))

/-- A HOLDING slot at the answer close of its deciding round (R81, R82, R83, R89): it lands, ends with READ_ERROR, falls back to AWAITING, ends by
its deferred expiry, or ends with LOCAL_CONTAINED. The fields of a FREE slot are the model's choice (log 17). The call mark is cleared at the
round's end by the model's choice (log 15). -/
def Obligations.HoldingSlotIsDecided : Prop :=
  ∀ (s : State) (k : SlotNo) (driven : Option AnswerCode) (report : AnswerReport),
    s.takesPart = true → s.span.phase = .answer none driven → s.span.candidate = none → s.station ≠ .listening →
    (∀ e ∈ s.inbound, e.provisional = false) → (s.engine = .idle → s.inbound = []) →
    (s.slot k).state = .holding → (∀ j, (s.slot j).state = .holding → j = k) →
    let s' : State := { s with span := ended s.span }
    let freed (status : Status) : State :=
      { s' with
        slots := s.slots.set k.val freeSlot
        completions := s.completions ++ [.request (s.slot k).cookie .fetch (s.slot k).dest status] }
    (s.station = .contained → exec (.answerClose report) s = .next (freed .localContained)) ∧
    (∀ data, s.station = .active → report = .code 1 → (s.slot k).held = some (.ok data) →
      exec (.answerClose report) s =
        .next { s' with
          slots := s.slots.set k.val { s.slot k with state := .landing, timer := .stopped, deferred := false }
          path :=
            if s.path.state = .free then
              { s.path with state := .busy (.landing k) (.write (s.slot k).landing data), lastServed := .landing }
            else
              { s.path with landingWaiting := s.path.landingWaiting ++ [(k, .write (s.slot k).landing data)] } }) ∧
    (s.station = .active → report = .code 1 → (s.slot k).held = some .readError →
      exec (.answerClose report) s = .next (freed .readError)) ∧
    (s.station = .active → report ≠ .code 1 → (s.slot k).deferred = false →
      exec (.answerClose report) s =
        .next { s' with slots := s.slots.set k.val { s.slot k with state := .awaiting, held := none } }) ∧
    (s.station = .active → report ≠ .code 1 → (s.slot k).deferred = true →
      exec (.answerClose report) s = .next (freed .fetchTimeout))

/-- The RETURN in flight (R63, R64, R68, R71, R107 to R110, R186): TAKEN removes it; STALE, FULL and OUTSIDE remove it with RETURN_STALE; REFUSED
removes it and closes its requester; a no-reply keeps it, an ordinary member of the list again, unless its requester is UNREACHABLE after it. An
engine in ROOM_WAIT asks for its read when a place is left (R101, R103, R112). That a no-reply also removes a RETURN whose requester was UNREACHABLE
before it, which no run reaches, is the model's choice (log 18), and so are the fields of a FREE slot (log 17). The call mark is cleared at the
round's end by the model's choice (log 15). -/
def Obligations.ReturnIsSettled : Prop :=
  ∀ (s : State) (older : List ReturnEntry) (r : ReturnEntry) (younger : List ReturnEntry),
    AwaitsReturn s older r younger → s.station = .active ∨ s.station = .contained →
    let d := r.requester
    let left (t : State) : State :=
      { s with
        span := ended s.span, returns := older ++ younger, reach := s.reach.set d.val (bookedEntry (s.reachOf d))
        engine := t.engine, path := t.path }
    (∃ t, exec (.answerClose (.code 1)) s = .next t ∧ t = left t ∧ RoomFreed s t) ∧
    (∀ c : BitVec 3, c = 2 ∨ c = 4 ∨ c = 5 →
      ∃ t, exec (.answerClose (.code c)) s = .next t ∧
        t = { left t with completions := push s.completions (.station .returnStale 1 d.val) } ∧ RoomFreed s t) ∧
    ((s.reachOf d).state = .contained → ∃ t, exec (.answerClose (.code 3)) s = .next t ∧ t = left t ∧ RoomFreed s t) ∧
    (∀ report, noReply report → (s.reachOf d).state = .contained ∨ canFallSilent (s.reachOf d).state ∧ (s.reachOf d).silence < 2 →
      exec (.answerClose report) s =
        .next { s with
          span := ended s.span, returns := older ++ { r with inFlight := false } :: younger
          reach := s.reach.set d.val { s.reachOf d with silence := min ((s.reachOf d).silence + 1) 3 } }) ∧
    (∀ report, noReply report → (s.reachOf d).state = .unreachable →
      ∃ t, exec (.answerClose report) s = .next t ∧ RoomFreed s t ∧
        t = { left t with reach := s.reach.set d.val { s.reachOf d with silence := min ((s.reachOf d).silence + 1) 3 } }) ∧
    ∀ report,
      noReply report ∧ canFallSilent (s.reachOf d).state ∧ 2 ≤ (s.reachOf d).silence ∨
        report = .code 3 ∧ (s.reachOf d).state ≠ .contained ∧ (s.reachOf d).state ≠ .self →
      ∃ t, exec (.answerClose report) s = .next t ∧ RoomFreed s t ∧
        t = { left t with
          sendQueue := s.sendQueue.filter fun e => e.dest != d
          reach := s.reach.set d.val (if report = .code 3 then haltedEntry else silentEntry)
          returns := (older ++ younger).filter fun x => x.requester != d
          slots := t.slots, completions := t.completions, choices := t.choices } ∧
        SlotsEnd s t (fun f => f.dest = d) ∧
        (report = .code 3 →
          AppendsGroups s.completions t.completions
            [laneRecords .destContained (s.lane d), slotFailures s d .destContained, [.station .peerHalted 1 d.val]]) ∧
        (report ≠ .code 3 →
          AppendsGroups s.completions t.completions [laneRecords .unreachable (s.lane d), slotFailures s d .unreachable])

/-! ## Timers and node memory -/

/-- The timers (R66, R73, R85, R86): the expiry of a retry timer makes a WAITING entry REACHABLE; that of a fetch timer ends an AWAITING slot and
only marks a HOLDING one; an expiry that finds its timer stopped does nothing (log 4: it does not arise). The fields of a FREE slot are the
model's choice (log 17). -/
def Obligations.TimersExpire : Prop :=
  ∀ (s : State) (d : Station) (k : SlotNo), s.held = false →
    ((s.reachOf d).state = .waiting →
      exec (.retryTimerExpiry d) s =
        .next { s with reach := s.reach.set d.val { s.reachOf d with state := .reachable, timer := .stopped } }) ∧
    ((s.reachOf d).state ≠ .waiting → exec (.retryTimerExpiry d) s = .next s) ∧
    ((s.slot k).timer = .stopped → exec (.fetchTimerExpiry k) s = .next s) ∧
    ((s.slot k).timer ≠ .stopped → (s.slot k).state = .awaiting →
      exec (.fetchTimerExpiry k) s =
        .next { s with
          slots := s.slots.set k.val freeSlot
          completions := s.completions ++ [.request (s.slot k).cookie .fetch (s.slot k).dest .fetchTimeout] }) ∧
    ((s.slot k).timer ≠ .stopped → (s.slot k).state = .holding →
      exec (.fetchTimerExpiry k) s =
        .next { s with slots := s.slots.set k.val { s.slot k with timer := .stopped, deferred := true } })

/-- A POST applied (R99 to R102, R104, R112, R117, R118): its entry is removed, the path starts the landing that waits, and the engine takes the
next head: the SIGNALs in front are raised at once, one after another, and then it takes the POST or FETCH behind them, or nothing. In CONTAINED the
engine stops instead. That the waiting landing is started before the engine asks is the model's inference (log 21). -/
def Obligations.AppliedPostLetsTheNextIn : Prop :=
  ∀ (s : State) (e : InboundEntry) (rest : List InboundEntry) (addr : Word) (data : List Word),
    WritesHead s e rest addr data →
    let applied : State := { s with inbound := rest, path := freed s.path }
    (s.station = .contained → exec (.applyWriteEnd .ok) s = .next { applied with engine := .stopped }) ∧
    ∀ raises more, s.station ≠ .contained → rest = signalEntries raises ++ more → signalNext more = false →
      exec (.applyWriteEnd .ok) s = .next (nextHead (raisedAll { applied with inbound := more } raises))

/-- An apply fault (R100, R129 to R135, R143, R144). Under REPORT in ACTIVE the post is dropped, a REPORTED CONTAIN is made or extended, and the
engine raises the SIGNALs in front and takes the head behind them (R99, R102); under HALT in ACTIVE the station is CONTAINED with the post at its
head; in CONTAINED it is recorded; in OFFLINE it is recorded, and under HALT the flag is set and the engine stops. A landing that waits is started
(R112; log 21 for its place before the engine's next request). Where LOCAL_FAULT stands among the notices of the raises is left free (log 2). The
fields of a FREE slot, and a CONTAINED station under REPORT, are the model's choices (logs 17 and 18). -/
def Obligations.ApplyFaultByPolicy : Prop :=
  ∀ (s : State) (e : InboundEntry) (rest : List InboundEntry) (addr : Word) (data : List Word),
    WritesHead s e rest addr data →
    let record (halted : Bool) : FaultRecord :=
      { cause := .applyFault, peer := e.source, addr := addr, length := data.length, halted := halted }
    let fault : Completion := .station .localFault 1 e.source.val
    let told : State := { s with path := freed s.path, completions := push s.completions fault }
    (∀ raises more, s.station = .active → s.policy = .report → s.contain.flag = false →
      rest = signalEntries raises ++ more → signalNext more = false →
      let dropped (pending : PendingContain) (late : StationSet) : State :=
        { s with
          path := freed s.path, inbound := more
          contain := { logged s.contain (record false) with pendingContain := some pending, late := late } }
      (s.contain.pendingContain = none →
        ∃ t, exec (.applyWriteEnd .error) s = .next t ∧
          GoesOnTelling
            (dropped
              { mode := .reported, cause := .applyFault, named := StationSet.single e.source, addr := addr, length := data.length }
              s.contain.late)
            t fault raises) ∧
      (∀ p, s.contain.pendingContain = some p → p.mode = .reported →
        ∃ t, exec (.applyWriteEnd .error) s = .next t ∧
          GoesOnTelling
            (dropped { p with named := StationSet.add p.named e.source, addr := addr, length := data.length }
              (if s.source? = some .contain then StationSet.add s.contain.late e.source else s.contain.late))
            t fault raises)) ∧
    (s.station = .active → s.policy = .halt → s.contain.flag = false →
      ∃ t, exec (.applyWriteEnd .error) s = .next t ∧
        t = { told with
          station := .contained, engine := .stopped, sendQueue := s.sendQueue.filter (·.inFlight)
          slots := t.slots, completions := t.completions, choices := t.choices
          contain := { logged s.contain (record true) with
            flag := true, cause := some .applyFault, late := 0
            pendingContain := some
              { mode := .halted, cause := .applyFault, named := 0, addr := addr, length := data.length } } } ∧
        SlotsEnd s t (fun _ => True) ∧
        AppendsGroups s.completions t.completions
          [sendFlush s.sendQueue, slotFlush s fun _ => false, [fault]]) ∧
    (s.station = .contained →
      exec (.applyWriteEnd .error) s =
        .next { told with engine := .stopped, contain := logged s.contain (record false) }) ∧
    (∀ raises more, s.station = .offline → s.policy = .report → rest = signalEntries raises ++ more → signalNext more = false →
      ∃ t, exec (.applyWriteEnd .error) s = .next t ∧
        GoesOnTelling { s with path := freed s.path, inbound := more, contain := logged s.contain (record false) } t fault raises) ∧
    (s.station = .offline → s.policy = .halt → s.contain.flag = false →
      exec (.applyWriteEnd .error) s =
        .next { told with
          engine := .stopped, contain := { logged s.contain (record true) with flag := true, cause := some .applyFault } })

/-- The end of the read for a FETCH head (R101, R104, R106, R112): its entry is removed, its RETURN joins the return list with the words of its length
or with READ_ERROR, unless its requester is UNREACHABLE or CONTAINED, and the engine raises the SIGNALs in front and takes the head behind them
(R99, R102), or stops in CONTAINED. A landing that waits is started (log 21 for its place before the engine's next request). -/
def Obligations.ReadEndsWithAReturn : Prop :=
  ∀ (s : State) (e : InboundEntry) (rest : List InboundEntry) (addr : Word) (length : Nat) (tag : SlotNo) (ending : ReadEnd),
    ReadsHead s e rest addr length tag →
    let closed : Prop := (s.reachOf e.source).state = .unreachable ∨ (s.reachOf e.source).state = .contained
    let result : FetchResult :=
      match ending with
      | .ok words => .ok (words.toList.take length)
      | .error => .readError
    let read (joined : List ReturnEntry) : State :=
      { s with inbound := rest, path := freed s.path, returns := s.returns ++ joined }
    ∀ joined : List ReturnEntry, (closed → joined = []) →
      (¬ closed → joined = [{ requester := e.source, tag := tag, result := result, inFlight := false }]) →
      (s.station = .contained → exec (.applyReadEnd ending) s = .next { read joined with engine := .stopped }) ∧
      ∀ raises more, s.station ≠ .contained → rest = signalEntries raises ++ more → signalNext more = false →
        exec (.applyReadEnd ending) s = .next (nextHead (raisedAll { read joined with inbound := more } raises))

/-- The end of a landing frees its slot with its record (R84, R88), an abandoned access ends for no block (R114), and the path then serves the
request that waits, that of the user not served last where both wait (R112, R113). The fields of a FREE slot are the model's choice (log 17). That
the slot of a landing in flight is LANDING is no premise: another one, which no run reaches, becomes FREE by the model's choice (log 18). -/
def Obligations.PathServesUsersInTurn : Prop :=
  ∀ s : State,
    (∀ k a ending, s.held = false → s.path.state = .busy (.landing k) a →
      ∃ t, PathServed s t ∧
        exec (.landingEnd ending) s =
          .next { t with
            slots := s.slots.set k.val freeSlot
            completions := s.completions ++
              [.request (s.slot k).cookie .fetch (s.slot k).dest (if ending = .ok then .fetched else .landError)] }) ∧
    ∀ a ending, s.path.state = .abandoned a → ∃ t, PathServed s t ∧ exec (.abandonedAccessEnd ending) s = .next t

/-! ## The node port -/

/-- A queued request that passes every check joins the send queue with its fields, each read from its bits of the request header (TABLE 11-7),
and RESULT holds ACCEPTED (R39, R167, R170, R171, R187). -/
def Obligations.QueuedRequestIsAdmitted : Prop :=
  ∀ (s : State) (k : RequestKind) (d : Station),
    s.held = false → field s 0 8 4 = d.val → refusal (admission s k) = none →
    exec (command k) s =
      .next { answered s .accepted with
        sendQueue := s.sendQueue ++
          [{ op := (match k with
              | .post => .post s.port.header[1] (s.port.data.toList.take (field s 0 16 5))
              | .fetch => .fetch s.port.header[1] (field s 0 16 5) s.port.header[2] none
              | .signal => .signal (Fin.ofNat 16 (field s 0 24 5)))
             dest := d, cookie := BitVec.ofNat 16 (field s 3 0 16), report := k != .fetch && field s 0 31 1 == 1, fullCount := 0
             inFlight := false }] }

/-- A queued request is refused with the result of the first check that fails, and a request of an undefined kind with the code of the station
state or BAD_KIND; nothing but RESULT changes (R169, R170). -/
def Obligations.QueuedRequestIsRefused : Prop :=
  ∀ s : State, s.held = false →
    (∀ k r, refusal (admission s k) = some r → exec (command k) s = .next (answered s r)) ∧
    exec .undefinedKind s =
      .next (answered s (match s.station with
        | .unstarted => .notStarted
        | .contained => .contained
        | .offline => .offline
        | .listening | .active => .badKind))

/-- START (R59, R93, R126, R154, R155): the first check that fails refuses it; else the configuration is taken from the request area, the enables
from its mask, and the station is LISTENING. -/
def Obligations.StartIsJudgedInOrder : Prop :=
  ∀ s : State, s.held = false →
    let base := s.port.header[2]
    let pages := field s 3 0 16
    let checks : List (Bool × Result) :=
      [(s.station != .unstarted, .alreadyStarted), (decide (12 ≤ s.strap.toNat), .badStrap),
        (decide (4 ≤ field s 1 4 3) || decide (4 ≤ field s 1 8 3) || decide (4 ≤ field s 1 12 3), .badCode),
        (decide (base.toNat % 4096 ≠ 0) || decide (2 ^ 32 < base.toNat + 4096 * pages), .badWindow)]
    (∀ r, refusal checks = some r → exec .start s = .next (answered s r)) ∧
    (refusal checks = none →
      ∃ t c, exec .start s = .next t ∧ t.config = some c ∧
        t = { answered s .accepted with config := t.config, station := .listening, joinWatch := 0, signals := t.signals } ∧
        (∀ k : SignalNo, t.signalOf k = { s.signalOf k with enabled := bit s.port.data[0] k.val }) ∧
        c.cls = (if field s 1 0 1 = 1 then .high else .low) ∧ c.policy = (if field s 1 1 1 = 1 then .halt else .report) ∧
        c.patience.val = field s 1 4 3 ∧ c.retry.val = field s 1 8 3 ∧ c.timeout.val = field s 1 12 3 ∧
        c.windowBase = base ∧ c.windowPages.toNat = pages ∧ c.signalMask.toNat = bits s.port.data[0] 0 16)

/-- RESTART (R163, R164, TABLE 9-2): refused with NOT_STARTED in UNSTARTED; else every block restarts in one act, and what the table keeps is
kept. The fields of a FREE slot are the model's choice (log 17). -/
def Obligations.RestartRestartsEveryBlock : Prop :=
  ∀ s : State, s.held = false →
    (s.station = .unstarted → exec .restart s = .next (answered s .notStarted)) ∧
    (s.station ≠ .unstarted →
      ∃ t, exec .restart s = .next t ∧
        t = { answered s .accepted with
          station := .listening, joinWatch := 0, helloPending := false
          span := { phase := .none, callMark := false, candidate := none, voidRun := 0, settleCollision := 0, callBar := false }
          turn := { stamp := { hp := 11, lp := 11, lo := false, high := 0 }, settle := true, repair := 0 }
          sendQueue := [], reach := t.reach, slots := t.slots, inbound := [], engine := .idle, returns := [], path := t.path
          signals := t.signals
          contain := { s.contain with flag := false, cause := none, pendingContain := none, late := 0 }
          completions := [] } ∧
        (∀ d, t.reachOf d =
          { state := if d.val = s.strap.toNat then .self else .unknown, silence := 0, timer := .stopped }) ∧
        (∀ i, t.slot i = freeSlot) ∧
        (∀ n, t.signalOf n =
          { pending := false, enabled := (s.signalOf n).enabled, count := 0, first := none, notice := .none }) ∧
        PathQuiet t ∧ t.path.lastServed = .landing ∧ (∀ u a, s.path.state = .busy u a → t.path.state = .abandoned a) ∧
        ((∀ u a, s.path.state ≠ .busy u a) → t.path.state = s.path.state))

/-- The immediate requests on the signal table, the fault log and the reach table (R74, R121 to R123, R146, R147, R168, R173): refused with
NOT_STARTED in UNSTARTED, each with its own checks in their order, and each with its effect and the values it returns, in the codes of TABLES 11-9
and 11-13. RESULT and the RESULT VIEW words read as what they hold, RESULT as the code of TABLE 11-10 (R166, R168). That the unassigned bits of
those words are zero is the model's choice (log 23). A pending signal without a first source, which no run reaches, is log 18's. -/
def Obligations.ImmediateRequestsAnswer : Prop :=
  ∀ s : State, s.held = false →
    ((s.readWindow 0x54).toNat, s.port.result) ∈ resultCodes ∧
    (∀ i : Fin 4, s.readWindow (BitVec.ofNat 8 (0x58 + 4 * i.val)) = s.port.resultView[i.val]) ∧
    (s.station = .unstarted → ∀ c ∈ [Instr.setMask, .ackSignal, .readFault, .clearFaults, .readReach],
      exec c s = .next (answered s .notStarted)) ∧
    (Takes s →
      (∃ t, exec .setMask s = .next (shown t (bits s.port.data[0] 0 16) 0) ∧
        t = { s with signals := t.signals, completions := t.completions } ∧
        (∀ n : SignalNo, t.signalOf n =
          { s.signalOf n with
            enabled := bit s.port.data[0] n.val
            notice :=
              if bit s.port.data[0] n.val && (s.signalOf n).pending && (s.signalOf n).notice == .none then .unread
              else (s.signalOf n).notice }) ∧
        t.completions = s.completions ++ (List.finRange 16).filterMap fun n =>
          if bit s.port.data[0] n.val && (s.signalOf n).pending && (s.signalOf n).notice == .none then
            (s.signalOf n).first.map fun f => .signal n f
          else none) ∧
      (16 ≤ field s 0 24 5 → exec .ackSignal s = .next (answered s .badSignal)) ∧
      (∀ n : SignalNo, field s 0 24 5 = n.val →
        ((s.signalOf n).pending = false → exec .ackSignal s = .next (answered s .notPending)) ∧
        ((s.signalOf n).pending = true → (s.signalOf n).notice = .unread →
          exec .ackSignal s = .next (answered s .noticeUnread)) ∧
        (∀ f, (s.signalOf n).pending = true → (s.signalOf n).notice ≠ .unread → (s.signalOf n).first = some f →
          exec .ackSignal s =
            .next (shown
              { s with
                signals := s.signals.set n.val
                  { pending := false, enabled := (s.signalOf n).enabled, count := 0, first := none, notice := .none } }
              (pack [((s.signalOf n).count, 0), (f.val, 8)]) 0))) ∧
      (∀ r, s.contain.log[s.port.header[1].toNat]? = some r →
        ∃ cause, (cause, r.cause) ∈ causeCodes ∧
          exec .readFault s =
            .next (shown s (pack [(cause, 0), (bitOf r.halted, 1), (r.peer.val, 8), (r.length, 16)]) r.addr)) ∧
      (s.contain.log.length ≤ s.port.header[1].toNat → exec .readFault s = .next (answered s .noRecord)) ∧
      (s.station = .contained → exec .clearFaults s = .next (answered s .logHeld)) ∧
      (s.station ≠ .contained →
        exec .clearFaults s = .next { answered s .accepted with contain := { s.contain with log := [], overflow := 0 } }) ∧
      (12 ≤ field s 1 0 4 → exec .readReach s = .next (answered s .badDest)) ∧
      ∀ d : Station, field s 1 0 4 = d.val →
        ∃ code, (code, (s.reachOf d).state) ∈ reachCodes ∧
          exec .readReach s =
            .next (shown s (pack [(code, 0), ((s.reachOf d).silence, 4), (bitOf ((s.reachOf d).timer != .stopped), 8)]) 0))

/-- The notice line is asserted exactly while a station that is not held in reset holds a record (R151, R180). TAKE (R119, R172, R179): the oldest
record is popped with PRESENT, the VIEW words then hold it as TABLE 11-12 lays it out, and a popped signal notice reads its signal's notice state;
an empty queue gives EMPTY; a station held in reset gives zero and pops nothing. Where the word read is kept, and that its unassigned bits are zero,
are the model's choices (logs 11 and 23). -/
def Obligations.TakePopsTheOldestRecord : Prop :=
  ∀ s : State,
    (s.noticeLine = true ↔ s.held = false ∧ s.completions ≠ []) ∧
    (s.completions = [] ∨ s.held = true → exec .take s = .next { s with port := { s.port with takeWord := 0 } }) ∧
    ∀ c rest, s.held = false → s.completions = c :: rest →
      ∃ t, exec .take s = .next t ∧
        t = { s with
          completions := rest, signals := t.signals, port := { s.port with view := c.words, takeWord := 1 } } ∧
        LaidOut c.words c ∧ (∀ i : Fin 4, t.readWindow (BitVec.ofNat 8 (0x6C + 4 * i.val)) = c.words[i.val]) ∧
        ((∀ n f, c ≠ .signal n f) → t.signals = s.signals) ∧
        (∀ n f, c = .signal n f → (s.signalOf n).notice = .unread →
          t.signals = s.signals.set n.val { s.signalOf n with notice := .read }) ∧
        (c.isRequest = true → t.budgetSum + 1 = s.budgetSum)

/-- The request area reads as its words, at the offsets of TABLE 11-6. A write to the slave window (R166, R167): a word of the request area takes
the value and reads back as it; a write to SUBMIT is the request its kind field names, whatever value is written; every other word ignores the
write. -/
def Obligations.WindowWordsTakeWrites : Prop :=
  ∀ (s : State) (offset : BitVec 8) (value : Word), s.held = false → offset.toNat % 4 = 0 →
    (∀ i : Fin 4, s.readWindow (BitVec.ofNat 8 (4 * i.val)) = s.port.header[i.val]) ∧
    (∀ i : Fin 16, s.readWindow (BitVec.ofNat 8 (0x10 + 4 * i.val)) = s.port.data[i.val]) ∧
    (offset.toNat < 0x50 →
      ∃ t, exec (.registerWrite offset value) s = .next t ∧
        t = { s with port := { s.port with header := t.port.header, data := t.port.data } } ∧
        t.readWindow offset = value ∧
        ∀ other : BitVec 8, other.toNat % 4 = 0 → other ≠ offset → t.readWindow other = s.readWindow other) ∧
    (offset = 0x50 →
      exec (.registerWrite offset value) s =
        exec
          (match field s 0 0 4 with
            | 0x1 => .post
            | 0x2 => .fetch
            | 0x3 => .signal
            | 0x8 => .start
            | 0x9 => .restart
            | 0xA => .setMask
            | 0xB => .ackSignal
            | 0xC => .readFault
            | 0xD => .clearFaults
            | 0xE => .readReach
            | _ => .undefinedKind)
          s) ∧
    (0x50 < offset.toNat → exec (.registerWrite offset value) s = .next s)

/-- A station notice handed on (R178): with an unread notice of its kind in the queue, that record's count rises, saturating, and its argument is
replaced in its place; otherwise a new record with count 1 joins at the tail. A request or signal record always joins at the tail (R174). -/
def Obligations.NoticesCoalesceInPlace : Prop :=
  (∀ (k : NoticeKind) (arg old count : Nat) (before after : List Completion),
    (∀ c ∈ before ++ after, c.isNotice k = false) →
    push (before ++ .station k count old :: after) (.station k 1 arg) =
      before ++ .station k (if count < 255 then count + 1 else count) arg :: after) ∧
  (∀ (k : NoticeKind) (arg : Nat) (queue : List Completion), (∀ c ∈ queue, c.isNotice k = false) →
    push queue (.station k 1 arg) = queue ++ [.station k 1 arg]) ∧
  ∀ (c : Completion) (queue : List Completion), (∀ k, c.isNotice k = false) → push queue c = queue ++ [c]

end
end

