-- ==== Sys2Proof/Laws/State.lean ====
section
/-! SUPPORT. The small lemmas of the named updates of State: one for each field, and for each view of the tables, under each update. All of
them are true by unfolding, so that no later proof unfolds a record update. -/

namespace Sys2Proof.Machine

variable (s : State)

/-! ## Table entries -/

@[simp] theorem State.setReach_held (n : Station) (e : ReachEntry) : (s.setReach n e).held = s.held := rfl
@[simp] theorem State.setReach_strap (n : Station) (e : ReachEntry) : (s.setReach n e).strap = s.strap := rfl
@[simp] theorem State.setReach_station (n : Station) (e : ReachEntry) : (s.setReach n e).station = s.station := rfl
@[simp] theorem State.setReach_config (n : Station) (e : ReachEntry) : (s.setReach n e).config = s.config := rfl
@[simp] theorem State.setReach_joinWatch (n : Station) (e : ReachEntry) : (s.setReach n e).joinWatch = s.joinWatch := rfl
@[simp] theorem State.setReach_helloPending (n : Station) (e : ReachEntry) : (s.setReach n e).helloPending = s.helloPending := rfl
@[simp] theorem State.setReach_span (n : Station) (e : ReachEntry) : (s.setReach n e).span = s.span := rfl
@[simp] theorem State.setReach_turn (n : Station) (e : ReachEntry) : (s.setReach n e).turn = s.turn := rfl
@[simp] theorem State.setReach_sendQueue (n : Station) (e : ReachEntry) : (s.setReach n e).sendQueue = s.sendQueue := rfl
@[simp] theorem State.setReach_reach (n : Station) (e : ReachEntry) : (s.setReach n e).reach = s.reach.set n.val e := rfl
@[simp] theorem State.setReach_slots (n : Station) (e : ReachEntry) : (s.setReach n e).slots = s.slots := rfl
@[simp] theorem State.setReach_inbound (n : Station) (e : ReachEntry) : (s.setReach n e).inbound = s.inbound := rfl
@[simp] theorem State.setReach_engine (n : Station) (e : ReachEntry) : (s.setReach n e).engine = s.engine := rfl
@[simp] theorem State.setReach_returns (n : Station) (e : ReachEntry) : (s.setReach n e).returns = s.returns := rfl
@[simp] theorem State.setReach_path (n : Station) (e : ReachEntry) : (s.setReach n e).path = s.path := rfl
@[simp] theorem State.setReach_signals (n : Station) (e : ReachEntry) : (s.setReach n e).signals = s.signals := rfl
@[simp] theorem State.setReach_contain (n : Station) (e : ReachEntry) : (s.setReach n e).contain = s.contain := rfl
@[simp] theorem State.setReach_completions (n : Station) (e : ReachEntry) : (s.setReach n e).completions = s.completions := rfl
@[simp] theorem State.setReach_port (n : Station) (e : ReachEntry) : (s.setReach n e).port = s.port := rfl
@[simp] theorem State.setReach_choices (n : Station) (e : ReachEntry) : (s.setReach n e).choices = s.choices := rfl
@[simp] theorem State.setReach_pending (n : Station) (e : ReachEntry) : (s.setReach n e).pending = s.pending := rfl
@[simp] theorem State.setReach_slot (n : Station) (e : ReachEntry) (i : SlotNo) : (s.setReach n e).slot i = s.slot i := rfl
@[simp] theorem State.setReach_signalOf (n : Station) (e : ReachEntry) (k : SignalNo) : (s.setReach n e).signalOf k = s.signalOf k := rfl
@[simp] theorem State.setReach_isSelf (n : Station) (e : ReachEntry) (m : Station) : (s.setReach n e).isSelf m = s.isSelf m := rfl
@[simp] theorem State.setReach_takesPart (n : Station) (e : ReachEntry) : (s.setReach n e).takesPart = s.takesPart := rfl
@[simp] theorem State.setReach_policy (n : Station) (e : ReachEntry) : (s.setReach n e).policy = s.policy := rfl
@[simp] theorem State.setReach_source (n : Station) (e : ReachEntry) : (s.setReach n e).source? = s.source? := rfl

@[simp] theorem State.setSlot_held (t : SlotNo) (f : FetchSlot) : (s.setSlot t f).held = s.held := rfl
@[simp] theorem State.setSlot_strap (t : SlotNo) (f : FetchSlot) : (s.setSlot t f).strap = s.strap := rfl
@[simp] theorem State.setSlot_station (t : SlotNo) (f : FetchSlot) : (s.setSlot t f).station = s.station := rfl
@[simp] theorem State.setSlot_config (t : SlotNo) (f : FetchSlot) : (s.setSlot t f).config = s.config := rfl
@[simp] theorem State.setSlot_joinWatch (t : SlotNo) (f : FetchSlot) : (s.setSlot t f).joinWatch = s.joinWatch := rfl
@[simp] theorem State.setSlot_helloPending (t : SlotNo) (f : FetchSlot) : (s.setSlot t f).helloPending = s.helloPending := rfl
@[simp] theorem State.setSlot_span (t : SlotNo) (f : FetchSlot) : (s.setSlot t f).span = s.span := rfl
@[simp] theorem State.setSlot_turn (t : SlotNo) (f : FetchSlot) : (s.setSlot t f).turn = s.turn := rfl
@[simp] theorem State.setSlot_sendQueue (t : SlotNo) (f : FetchSlot) : (s.setSlot t f).sendQueue = s.sendQueue := rfl
@[simp] theorem State.setSlot_reach (t : SlotNo) (f : FetchSlot) : (s.setSlot t f).reach = s.reach := rfl
@[simp] theorem State.setSlot_slots (t : SlotNo) (f : FetchSlot) : (s.setSlot t f).slots = s.slots.set t.val f := rfl
@[simp] theorem State.setSlot_inbound (t : SlotNo) (f : FetchSlot) : (s.setSlot t f).inbound = s.inbound := rfl
@[simp] theorem State.setSlot_engine (t : SlotNo) (f : FetchSlot) : (s.setSlot t f).engine = s.engine := rfl
@[simp] theorem State.setSlot_returns (t : SlotNo) (f : FetchSlot) : (s.setSlot t f).returns = s.returns := rfl
@[simp] theorem State.setSlot_path (t : SlotNo) (f : FetchSlot) : (s.setSlot t f).path = s.path := rfl
@[simp] theorem State.setSlot_signals (t : SlotNo) (f : FetchSlot) : (s.setSlot t f).signals = s.signals := rfl
@[simp] theorem State.setSlot_contain (t : SlotNo) (f : FetchSlot) : (s.setSlot t f).contain = s.contain := rfl
@[simp] theorem State.setSlot_completions (t : SlotNo) (f : FetchSlot) : (s.setSlot t f).completions = s.completions := rfl
@[simp] theorem State.setSlot_port (t : SlotNo) (f : FetchSlot) : (s.setSlot t f).port = s.port := rfl
@[simp] theorem State.setSlot_choices (t : SlotNo) (f : FetchSlot) : (s.setSlot t f).choices = s.choices := rfl
@[simp] theorem State.setSlot_pending (t : SlotNo) (f : FetchSlot) : (s.setSlot t f).pending = s.pending := rfl
@[simp] theorem State.setSlot_reachOf (t : SlotNo) (f : FetchSlot) (d : Station) : (s.setSlot t f).reachOf d = s.reachOf d := rfl
@[simp] theorem State.setSlot_signalOf (t : SlotNo) (f : FetchSlot) (k : SignalNo) : (s.setSlot t f).signalOf k = s.signalOf k := rfl
@[simp] theorem State.setSlot_isSelf (t : SlotNo) (f : FetchSlot) (m : Station) : (s.setSlot t f).isSelf m = s.isSelf m := rfl
@[simp] theorem State.setSlot_takesPart (t : SlotNo) (f : FetchSlot) : (s.setSlot t f).takesPart = s.takesPart := rfl
@[simp] theorem State.setSlot_policy (t : SlotNo) (f : FetchSlot) : (s.setSlot t f).policy = s.policy := rfl
@[simp] theorem State.setSlot_source (t : SlotNo) (f : FetchSlot) : (s.setSlot t f).source? = s.source? := rfl

@[simp] theorem State.setSignal_held (n : SignalNo) (e : SignalEntry) : (s.setSignal n e).held = s.held := rfl
@[simp] theorem State.setSignal_strap (n : SignalNo) (e : SignalEntry) : (s.setSignal n e).strap = s.strap := rfl
@[simp] theorem State.setSignal_station (n : SignalNo) (e : SignalEntry) : (s.setSignal n e).station = s.station := rfl
@[simp] theorem State.setSignal_config (n : SignalNo) (e : SignalEntry) : (s.setSignal n e).config = s.config := rfl
@[simp] theorem State.setSignal_joinWatch (n : SignalNo) (e : SignalEntry) : (s.setSignal n e).joinWatch = s.joinWatch := rfl
@[simp] theorem State.setSignal_helloPending (n : SignalNo) (e : SignalEntry) : (s.setSignal n e).helloPending = s.helloPending := rfl
@[simp] theorem State.setSignal_span (n : SignalNo) (e : SignalEntry) : (s.setSignal n e).span = s.span := rfl
@[simp] theorem State.setSignal_turn (n : SignalNo) (e : SignalEntry) : (s.setSignal n e).turn = s.turn := rfl
@[simp] theorem State.setSignal_sendQueue (n : SignalNo) (e : SignalEntry) : (s.setSignal n e).sendQueue = s.sendQueue := rfl
@[simp] theorem State.setSignal_reach (n : SignalNo) (e : SignalEntry) : (s.setSignal n e).reach = s.reach := rfl
@[simp] theorem State.setSignal_slots (n : SignalNo) (e : SignalEntry) : (s.setSignal n e).slots = s.slots := rfl
@[simp] theorem State.setSignal_inbound (n : SignalNo) (e : SignalEntry) : (s.setSignal n e).inbound = s.inbound := rfl
@[simp] theorem State.setSignal_engine (n : SignalNo) (e : SignalEntry) : (s.setSignal n e).engine = s.engine := rfl
@[simp] theorem State.setSignal_returns (n : SignalNo) (e : SignalEntry) : (s.setSignal n e).returns = s.returns := rfl
@[simp] theorem State.setSignal_path (n : SignalNo) (e : SignalEntry) : (s.setSignal n e).path = s.path := rfl
@[simp] theorem State.setSignal_signals (n : SignalNo) (e : SignalEntry) : (s.setSignal n e).signals = s.signals.set n.val e := rfl
@[simp] theorem State.setSignal_contain (n : SignalNo) (e : SignalEntry) : (s.setSignal n e).contain = s.contain := rfl
@[simp] theorem State.setSignal_completions (n : SignalNo) (e : SignalEntry) : (s.setSignal n e).completions = s.completions := rfl
@[simp] theorem State.setSignal_port (n : SignalNo) (e : SignalEntry) : (s.setSignal n e).port = s.port := rfl
@[simp] theorem State.setSignal_choices (n : SignalNo) (e : SignalEntry) : (s.setSignal n e).choices = s.choices := rfl
@[simp] theorem State.setSignal_pending (n : SignalNo) (e : SignalEntry) : (s.setSignal n e).pending = s.pending := rfl
@[simp] theorem State.setSignal_reachOf (n : SignalNo) (e : SignalEntry) (d : Station) : (s.setSignal n e).reachOf d = s.reachOf d := rfl
@[simp] theorem State.setSignal_slot (n : SignalNo) (e : SignalEntry) (i : SlotNo) : (s.setSignal n e).slot i = s.slot i := rfl
@[simp] theorem State.setSignal_isSelf (n : SignalNo) (e : SignalEntry) (m : Station) : (s.setSignal n e).isSelf m = s.isSelf m := rfl
@[simp] theorem State.setSignal_takesPart (n : SignalNo) (e : SignalEntry) : (s.setSignal n e).takesPart = s.takesPart := rfl
@[simp] theorem State.setSignal_policy (n : SignalNo) (e : SignalEntry) : (s.setSignal n e).policy = s.policy := rfl
@[simp] theorem State.setSignal_source (n : SignalNo) (e : SignalEntry) : (s.setSignal n e).source? = s.source? := rfl

@[simp] theorem State.allocate_held (t : SlotNo) (dest : Station) (landing : Word) (length : Nat) (cookie : BitVec 16) :
    (s.allocate t dest landing length cookie).held =
      s.held := rfl
@[simp] theorem State.allocate_strap (t : SlotNo) (dest : Station) (landing : Word) (length : Nat) (cookie : BitVec 16) :
    (s.allocate t dest landing length cookie).strap =
      s.strap := rfl
@[simp] theorem State.allocate_station (t : SlotNo) (dest : Station) (landing : Word) (length : Nat) (cookie : BitVec 16) :
    (s.allocate t dest landing length cookie).station =
      s.station := rfl
@[simp] theorem State.allocate_config (t : SlotNo) (dest : Station) (landing : Word) (length : Nat) (cookie : BitVec 16) :
    (s.allocate t dest landing length cookie).config =
      s.config := rfl
@[simp] theorem State.allocate_joinWatch (t : SlotNo) (dest : Station) (landing : Word) (length : Nat) (cookie : BitVec 16) :
    (s.allocate t dest landing length cookie).joinWatch =
      s.joinWatch := rfl
@[simp] theorem State.allocate_helloPending (t : SlotNo) (dest : Station) (landing : Word) (length : Nat) (cookie : BitVec 16) :
    (s.allocate t dest landing length cookie).helloPending =
      s.helloPending := rfl
@[simp] theorem State.allocate_span (t : SlotNo) (dest : Station) (landing : Word) (length : Nat) (cookie : BitVec 16) :
    (s.allocate t dest landing length cookie).span =
      s.span := rfl
@[simp] theorem State.allocate_turn (t : SlotNo) (dest : Station) (landing : Word) (length : Nat) (cookie : BitVec 16) :
    (s.allocate t dest landing length cookie).turn =
      s.turn := rfl
@[simp] theorem State.allocate_sendQueue (t : SlotNo) (dest : Station) (landing : Word) (length : Nat) (cookie : BitVec 16) :
    (s.allocate t dest landing length cookie).sendQueue =
      s.sendQueue := rfl
@[simp] theorem State.allocate_reach (t : SlotNo) (dest : Station) (landing : Word) (length : Nat) (cookie : BitVec 16) :
    (s.allocate t dest landing length cookie).reach =
      s.reach := rfl
@[simp] theorem State.allocate_slots (t : SlotNo) (dest : Station) (landing : Word) (length : Nat) (cookie : BitVec 16) :
    (s.allocate t dest landing length cookie).slots =
      s.slots.set t.val
      { state := .awaiting, dest := dest, landing := landing, length := length, cookie := cookie, held := none
        timer := .running s.fetchTimeout, deferred := false } := rfl
@[simp] theorem State.allocate_inbound (t : SlotNo) (dest : Station) (landing : Word) (length : Nat) (cookie : BitVec 16) :
    (s.allocate t dest landing length cookie).inbound =
      s.inbound := rfl
@[simp] theorem State.allocate_engine (t : SlotNo) (dest : Station) (landing : Word) (length : Nat) (cookie : BitVec 16) :
    (s.allocate t dest landing length cookie).engine =
      s.engine := rfl
@[simp] theorem State.allocate_returns (t : SlotNo) (dest : Station) (landing : Word) (length : Nat) (cookie : BitVec 16) :
    (s.allocate t dest landing length cookie).returns =
      s.returns := rfl
@[simp] theorem State.allocate_path (t : SlotNo) (dest : Station) (landing : Word) (length : Nat) (cookie : BitVec 16) :
    (s.allocate t dest landing length cookie).path =
      s.path := rfl
@[simp] theorem State.allocate_signals (t : SlotNo) (dest : Station) (landing : Word) (length : Nat) (cookie : BitVec 16) :
    (s.allocate t dest landing length cookie).signals =
      s.signals := rfl
@[simp] theorem State.allocate_contain (t : SlotNo) (dest : Station) (landing : Word) (length : Nat) (cookie : BitVec 16) :
    (s.allocate t dest landing length cookie).contain =
      s.contain := rfl
@[simp] theorem State.allocate_completions (t : SlotNo) (dest : Station) (landing : Word) (length : Nat) (cookie : BitVec 16) :
    (s.allocate t dest landing length cookie).completions =
      s.completions := rfl
@[simp] theorem State.allocate_port (t : SlotNo) (dest : Station) (landing : Word) (length : Nat) (cookie : BitVec 16) :
    (s.allocate t dest landing length cookie).port =
      s.port := rfl
@[simp] theorem State.allocate_choices (t : SlotNo) (dest : Station) (landing : Word) (length : Nat) (cookie : BitVec 16) :
    (s.allocate t dest landing length cookie).choices =
      s.choices := rfl
@[simp] theorem State.allocate_pending (t : SlotNo) (dest : Station) (landing : Word) (length : Nat) (cookie : BitVec 16) :
    (s.allocate t dest landing length cookie).pending =
      s.pending := rfl
@[simp] theorem State.allocate_reachOf (t : SlotNo) (dest : Station) (landing : Word) (length : Nat) (cookie : BitVec 16) (d : Station) : (s.allocate t dest landing length cookie).reachOf d = s.reachOf d := rfl
@[simp] theorem State.allocate_signalOf (t : SlotNo) (dest : Station) (landing : Word) (length : Nat) (cookie : BitVec 16) (k : SignalNo) : (s.allocate t dest landing length cookie).signalOf k = s.signalOf k := rfl
@[simp] theorem State.allocate_isSelf (t : SlotNo) (dest : Station) (landing : Word) (length : Nat) (cookie : BitVec 16) (m : Station) : (s.allocate t dest landing length cookie).isSelf m = s.isSelf m := rfl
@[simp] theorem State.allocate_takesPart (t : SlotNo) (dest : Station) (landing : Word) (length : Nat) (cookie : BitVec 16) : (s.allocate t dest landing length cookie).takesPart = s.takesPart := rfl
@[simp] theorem State.allocate_policy (t : SlotNo) (dest : Station) (landing : Word) (length : Nat) (cookie : BitVec 16) : (s.allocate t dest landing length cookie).policy = s.policy := rfl
@[simp] theorem State.allocate_source (t : SlotNo) (dest : Station) (landing : Word) (length : Nat) (cookie : BitVec 16) : (s.allocate t dest landing length cookie).source? = s.source? := rfl

@[simp] theorem State.initMask_held (mask : BitVec 16) : (s.initMask mask).held = s.held := rfl
@[simp] theorem State.initMask_strap (mask : BitVec 16) : (s.initMask mask).strap = s.strap := rfl
@[simp] theorem State.initMask_station (mask : BitVec 16) : (s.initMask mask).station = s.station := rfl
@[simp] theorem State.initMask_config (mask : BitVec 16) : (s.initMask mask).config = s.config := rfl
@[simp] theorem State.initMask_joinWatch (mask : BitVec 16) : (s.initMask mask).joinWatch = s.joinWatch := rfl
@[simp] theorem State.initMask_helloPending (mask : BitVec 16) : (s.initMask mask).helloPending = s.helloPending := rfl
@[simp] theorem State.initMask_span (mask : BitVec 16) : (s.initMask mask).span = s.span := rfl
@[simp] theorem State.initMask_turn (mask : BitVec 16) : (s.initMask mask).turn = s.turn := rfl
@[simp] theorem State.initMask_sendQueue (mask : BitVec 16) : (s.initMask mask).sendQueue = s.sendQueue := rfl
@[simp] theorem State.initMask_reach (mask : BitVec 16) : (s.initMask mask).reach = s.reach := rfl
@[simp] theorem State.initMask_slots (mask : BitVec 16) : (s.initMask mask).slots = s.slots := rfl
@[simp] theorem State.initMask_inbound (mask : BitVec 16) : (s.initMask mask).inbound = s.inbound := rfl
@[simp] theorem State.initMask_engine (mask : BitVec 16) : (s.initMask mask).engine = s.engine := rfl
@[simp] theorem State.initMask_returns (mask : BitVec 16) : (s.initMask mask).returns = s.returns := rfl
@[simp] theorem State.initMask_path (mask : BitVec 16) : (s.initMask mask).path = s.path := rfl
@[simp] theorem State.initMask_signals (mask : BitVec 16) :
    (s.initMask mask).signals =
      Vector.ofFn fun n => { s.signalOf n with enabled := mask.getLsbD n.val } := rfl
@[simp] theorem State.initMask_contain (mask : BitVec 16) : (s.initMask mask).contain = s.contain := rfl
@[simp] theorem State.initMask_completions (mask : BitVec 16) : (s.initMask mask).completions = s.completions := rfl
@[simp] theorem State.initMask_port (mask : BitVec 16) : (s.initMask mask).port = s.port := rfl
@[simp] theorem State.initMask_choices (mask : BitVec 16) : (s.initMask mask).choices = s.choices := rfl
@[simp] theorem State.initMask_pending (mask : BitVec 16) : (s.initMask mask).pending = s.pending := rfl
@[simp] theorem State.initMask_reachOf (mask : BitVec 16) (d : Station) : (s.initMask mask).reachOf d = s.reachOf d := rfl
@[simp] theorem State.initMask_slot (mask : BitVec 16) (i : SlotNo) : (s.initMask mask).slot i = s.slot i := rfl
@[simp] theorem State.initMask_isSelf (mask : BitVec 16) (m : Station) : (s.initMask mask).isSelf m = s.isSelf m := rfl
@[simp] theorem State.initMask_takesPart (mask : BitVec 16) : (s.initMask mask).takesPart = s.takesPart := rfl
@[simp] theorem State.initMask_policy (mask : BitVec 16) : (s.initMask mask).policy = s.policy := rfl
@[simp] theorem State.initMask_source (mask : BitVec 16) : (s.initMask mask).source? = s.source? := rfl

/-! ## Span unit -/

@[simp] theorem State.withPhase_held (p : Phase) : (s.withPhase p).held = s.held := rfl
@[simp] theorem State.withPhase_strap (p : Phase) : (s.withPhase p).strap = s.strap := rfl
@[simp] theorem State.withPhase_station (p : Phase) : (s.withPhase p).station = s.station := rfl
@[simp] theorem State.withPhase_config (p : Phase) : (s.withPhase p).config = s.config := rfl
@[simp] theorem State.withPhase_joinWatch (p : Phase) : (s.withPhase p).joinWatch = s.joinWatch := rfl
@[simp] theorem State.withPhase_helloPending (p : Phase) : (s.withPhase p).helloPending = s.helloPending := rfl
@[simp] theorem State.withPhase_span (p : Phase) : (s.withPhase p).span = { s.span with phase := p } := rfl
@[simp] theorem State.withPhase_turn (p : Phase) : (s.withPhase p).turn = s.turn := rfl
@[simp] theorem State.withPhase_sendQueue (p : Phase) : (s.withPhase p).sendQueue = s.sendQueue := rfl
@[simp] theorem State.withPhase_reach (p : Phase) : (s.withPhase p).reach = s.reach := rfl
@[simp] theorem State.withPhase_slots (p : Phase) : (s.withPhase p).slots = s.slots := rfl
@[simp] theorem State.withPhase_inbound (p : Phase) : (s.withPhase p).inbound = s.inbound := rfl
@[simp] theorem State.withPhase_engine (p : Phase) : (s.withPhase p).engine = s.engine := rfl
@[simp] theorem State.withPhase_returns (p : Phase) : (s.withPhase p).returns = s.returns := rfl
@[simp] theorem State.withPhase_path (p : Phase) : (s.withPhase p).path = s.path := rfl
@[simp] theorem State.withPhase_signals (p : Phase) : (s.withPhase p).signals = s.signals := rfl
@[simp] theorem State.withPhase_contain (p : Phase) : (s.withPhase p).contain = s.contain := rfl
@[simp] theorem State.withPhase_completions (p : Phase) : (s.withPhase p).completions = s.completions := rfl
@[simp] theorem State.withPhase_port (p : Phase) : (s.withPhase p).port = s.port := rfl
@[simp] theorem State.withPhase_choices (p : Phase) : (s.withPhase p).choices = s.choices := rfl
@[simp] theorem State.withPhase_pending (p : Phase) : (s.withPhase p).pending = s.pending := rfl
@[simp] theorem State.withPhase_reachOf (p : Phase) (d : Station) : (s.withPhase p).reachOf d = s.reachOf d := rfl
@[simp] theorem State.withPhase_slot (p : Phase) (i : SlotNo) : (s.withPhase p).slot i = s.slot i := rfl
@[simp] theorem State.withPhase_signalOf (p : Phase) (k : SignalNo) : (s.withPhase p).signalOf k = s.signalOf k := rfl
@[simp] theorem State.withPhase_isSelf (p : Phase) (m : Station) : (s.withPhase p).isSelf m = s.isSelf m := rfl
@[simp] theorem State.withPhase_takesPart (p : Phase) : (s.withPhase p).takesPart = s.takesPart := rfl
@[simp] theorem State.withPhase_policy (p : Phase) : (s.withPhase p).policy = s.policy := rfl

@[simp] theorem State.endRound_held : (s.endRound).held = s.held := rfl
@[simp] theorem State.endRound_strap : (s.endRound).strap = s.strap := rfl
@[simp] theorem State.endRound_station : (s.endRound).station = s.station := rfl
@[simp] theorem State.endRound_config : (s.endRound).config = s.config := rfl
@[simp] theorem State.endRound_joinWatch : (s.endRound).joinWatch = s.joinWatch := rfl
@[simp] theorem State.endRound_helloPending : (s.endRound).helloPending = s.helloPending := rfl
@[simp] theorem State.endRound_span : (s.endRound).span = { s.span with phase := .none, callMark := false, candidate := none } := rfl
@[simp] theorem State.endRound_turn : (s.endRound).turn = s.turn := rfl
@[simp] theorem State.endRound_sendQueue : (s.endRound).sendQueue = s.sendQueue := rfl
@[simp] theorem State.endRound_reach : (s.endRound).reach = s.reach := rfl
@[simp] theorem State.endRound_slots : (s.endRound).slots = s.slots := rfl
@[simp] theorem State.endRound_inbound : (s.endRound).inbound = s.inbound := rfl
@[simp] theorem State.endRound_engine : (s.endRound).engine = s.engine := rfl
@[simp] theorem State.endRound_returns : (s.endRound).returns = s.returns := rfl
@[simp] theorem State.endRound_path : (s.endRound).path = s.path := rfl
@[simp] theorem State.endRound_signals : (s.endRound).signals = s.signals := rfl
@[simp] theorem State.endRound_contain : (s.endRound).contain = s.contain := rfl
@[simp] theorem State.endRound_completions : (s.endRound).completions = s.completions := rfl
@[simp] theorem State.endRound_port : (s.endRound).port = s.port := rfl
@[simp] theorem State.endRound_choices : (s.endRound).choices = s.choices := rfl
@[simp] theorem State.endRound_pending : (s.endRound).pending = s.pending := rfl
@[simp] theorem State.endRound_reachOf (d : Station) : (s.endRound).reachOf d = s.reachOf d := rfl
@[simp] theorem State.endRound_slot (i : SlotNo) : (s.endRound).slot i = s.slot i := rfl
@[simp] theorem State.endRound_signalOf (k : SignalNo) : (s.endRound).signalOf k = s.signalOf k := rfl
@[simp] theorem State.endRound_isSelf (m : Station) : (s.endRound).isSelf m = s.isSelf m := rfl
@[simp] theorem State.endRound_takesPart : (s.endRound).takesPart = s.takesPart := rfl
@[simp] theorem State.endRound_policy : (s.endRound).policy = s.policy := rfl

@[simp] theorem State.clearCandidate_held : (s.clearCandidate).held = s.held := rfl
@[simp] theorem State.clearCandidate_strap : (s.clearCandidate).strap = s.strap := rfl
@[simp] theorem State.clearCandidate_station : (s.clearCandidate).station = s.station := rfl
@[simp] theorem State.clearCandidate_config : (s.clearCandidate).config = s.config := rfl
@[simp] theorem State.clearCandidate_joinWatch : (s.clearCandidate).joinWatch = s.joinWatch := rfl
@[simp] theorem State.clearCandidate_helloPending : (s.clearCandidate).helloPending = s.helloPending := rfl
@[simp] theorem State.clearCandidate_span : (s.clearCandidate).span = { s.span with candidate := none } := rfl
@[simp] theorem State.clearCandidate_turn : (s.clearCandidate).turn = s.turn := rfl
@[simp] theorem State.clearCandidate_sendQueue : (s.clearCandidate).sendQueue = s.sendQueue := rfl
@[simp] theorem State.clearCandidate_reach : (s.clearCandidate).reach = s.reach := rfl
@[simp] theorem State.clearCandidate_slots : (s.clearCandidate).slots = s.slots := rfl
@[simp] theorem State.clearCandidate_inbound : (s.clearCandidate).inbound = s.inbound := rfl
@[simp] theorem State.clearCandidate_engine : (s.clearCandidate).engine = s.engine := rfl
@[simp] theorem State.clearCandidate_returns : (s.clearCandidate).returns = s.returns := rfl
@[simp] theorem State.clearCandidate_path : (s.clearCandidate).path = s.path := rfl
@[simp] theorem State.clearCandidate_signals : (s.clearCandidate).signals = s.signals := rfl
@[simp] theorem State.clearCandidate_contain : (s.clearCandidate).contain = s.contain := rfl
@[simp] theorem State.clearCandidate_completions : (s.clearCandidate).completions = s.completions := rfl
@[simp] theorem State.clearCandidate_port : (s.clearCandidate).port = s.port := rfl
@[simp] theorem State.clearCandidate_choices : (s.clearCandidate).choices = s.choices := rfl
@[simp] theorem State.clearCandidate_pending : (s.clearCandidate).pending = s.pending := rfl
@[simp] theorem State.clearCandidate_reachOf (d : Station) : (s.clearCandidate).reachOf d = s.reachOf d := rfl
@[simp] theorem State.clearCandidate_slot (i : SlotNo) : (s.clearCandidate).slot i = s.slot i := rfl
@[simp] theorem State.clearCandidate_signalOf (k : SignalNo) : (s.clearCandidate).signalOf k = s.signalOf k := rfl
@[simp] theorem State.clearCandidate_isSelf (m : Station) : (s.clearCandidate).isSelf m = s.isSelf m := rfl
@[simp] theorem State.clearCandidate_takesPart : (s.clearCandidate).takesPart = s.takesPart := rfl
@[simp] theorem State.clearCandidate_policy : (s.clearCandidate).policy = s.policy := rfl

@[simp] theorem State.goodRound_held : (s.goodRound).held = s.held := rfl
@[simp] theorem State.goodRound_strap : (s.goodRound).strap = s.strap := rfl
@[simp] theorem State.goodRound_station : (s.goodRound).station = s.station := rfl
@[simp] theorem State.goodRound_config : (s.goodRound).config = s.config := rfl
@[simp] theorem State.goodRound_joinWatch : (s.goodRound).joinWatch = s.joinWatch := rfl
@[simp] theorem State.goodRound_helloPending : (s.goodRound).helloPending = s.helloPending := rfl
@[simp] theorem State.goodRound_span : (s.goodRound).span = { s.span with voidRun := 0, settleCollision := 0 } := rfl
@[simp] theorem State.goodRound_turn : (s.goodRound).turn = s.turn := rfl
@[simp] theorem State.goodRound_sendQueue : (s.goodRound).sendQueue = s.sendQueue := rfl
@[simp] theorem State.goodRound_reach : (s.goodRound).reach = s.reach := rfl
@[simp] theorem State.goodRound_slots : (s.goodRound).slots = s.slots := rfl
@[simp] theorem State.goodRound_inbound : (s.goodRound).inbound = s.inbound := rfl
@[simp] theorem State.goodRound_engine : (s.goodRound).engine = s.engine := rfl
@[simp] theorem State.goodRound_returns : (s.goodRound).returns = s.returns := rfl
@[simp] theorem State.goodRound_path : (s.goodRound).path = s.path := rfl
@[simp] theorem State.goodRound_signals : (s.goodRound).signals = s.signals := rfl
@[simp] theorem State.goodRound_contain : (s.goodRound).contain = s.contain := rfl
@[simp] theorem State.goodRound_completions : (s.goodRound).completions = s.completions := rfl
@[simp] theorem State.goodRound_port : (s.goodRound).port = s.port := rfl
@[simp] theorem State.goodRound_choices : (s.goodRound).choices = s.choices := rfl
@[simp] theorem State.goodRound_pending : (s.goodRound).pending = s.pending := rfl
@[simp] theorem State.goodRound_reachOf (d : Station) : (s.goodRound).reachOf d = s.reachOf d := rfl
@[simp] theorem State.goodRound_slot (i : SlotNo) : (s.goodRound).slot i = s.slot i := rfl
@[simp] theorem State.goodRound_signalOf (k : SignalNo) : (s.goodRound).signalOf k = s.signalOf k := rfl
@[simp] theorem State.goodRound_isSelf (m : Station) : (s.goodRound).isSelf m = s.isSelf m := rfl
@[simp] theorem State.goodRound_takesPart : (s.goodRound).takesPart = s.takesPart := rfl
@[simp] theorem State.goodRound_policy : (s.goodRound).policy = s.policy := rfl

@[simp] theorem State.call_held (c : Candidate) : (s.call c).held = s.held := rfl
@[simp] theorem State.call_strap (c : Candidate) : (s.call c).strap = s.strap := rfl
@[simp] theorem State.call_station (c : Candidate) : (s.call c).station = s.station := rfl
@[simp] theorem State.call_config (c : Candidate) : (s.call c).config = s.config := rfl
@[simp] theorem State.call_joinWatch (c : Candidate) : (s.call c).joinWatch = s.joinWatch := rfl
@[simp] theorem State.call_helloPending (c : Candidate) : (s.call c).helloPending = s.helloPending := rfl
@[simp] theorem State.call_span (c : Candidate) :
    (s.call c).span =
      { s.span with phase := .calling, callMark := true, candidate := some c } := rfl
@[simp] theorem State.call_turn (c : Candidate) : (s.call c).turn = s.turn := rfl
@[simp] theorem State.call_sendQueue (c : Candidate) : (s.call c).sendQueue = s.sendQueue := rfl
@[simp] theorem State.call_reach (c : Candidate) : (s.call c).reach = s.reach := rfl
@[simp] theorem State.call_slots (c : Candidate) : (s.call c).slots = s.slots := rfl
@[simp] theorem State.call_inbound (c : Candidate) : (s.call c).inbound = s.inbound := rfl
@[simp] theorem State.call_engine (c : Candidate) : (s.call c).engine = s.engine := rfl
@[simp] theorem State.call_returns (c : Candidate) : (s.call c).returns = s.returns := rfl
@[simp] theorem State.call_path (c : Candidate) : (s.call c).path = s.path := rfl
@[simp] theorem State.call_signals (c : Candidate) : (s.call c).signals = s.signals := rfl
@[simp] theorem State.call_contain (c : Candidate) : (s.call c).contain = s.contain := rfl
@[simp] theorem State.call_completions (c : Candidate) : (s.call c).completions = s.completions := rfl
@[simp] theorem State.call_port (c : Candidate) : (s.call c).port = s.port := rfl
@[simp] theorem State.call_choices (c : Candidate) : (s.call c).choices = s.choices := rfl
@[simp] theorem State.call_pending (c : Candidate) : (s.call c).pending = s.pending := rfl
@[simp] theorem State.call_reachOf (c : Candidate) (d : Station) : (s.call c).reachOf d = s.reachOf d := rfl
@[simp] theorem State.call_slot (c : Candidate) (i : SlotNo) : (s.call c).slot i = s.slot i := rfl
@[simp] theorem State.call_signalOf (c : Candidate) (k : SignalNo) : (s.call c).signalOf k = s.signalOf k := rfl
@[simp] theorem State.call_isSelf (c : Candidate) (m : Station) : (s.call c).isSelf m = s.isSelf m := rfl
@[simp] theorem State.call_takesPart (c : Candidate) : (s.call c).takesPart = s.takesPart := rfl
@[simp] theorem State.call_policy (c : Candidate) : (s.call c).policy = s.policy := rfl

@[simp] theorem State.listen_held : (s.listen).held = s.held := rfl
@[simp] theorem State.listen_strap : (s.listen).strap = s.strap := rfl
@[simp] theorem State.listen_station : (s.listen).station = s.station := rfl
@[simp] theorem State.listen_config : (s.listen).config = s.config := rfl
@[simp] theorem State.listen_joinWatch : (s.listen).joinWatch = s.joinWatch := rfl
@[simp] theorem State.listen_helloPending : (s.listen).helloPending = s.helloPending := rfl
@[simp] theorem State.listen_span : (s.listen).span = { s.span with phase := .calling } := rfl
@[simp] theorem State.listen_turn : (s.listen).turn = s.turn := rfl
@[simp] theorem State.listen_sendQueue : (s.listen).sendQueue = s.sendQueue := rfl
@[simp] theorem State.listen_reach : (s.listen).reach = s.reach := rfl
@[simp] theorem State.listen_slots : (s.listen).slots = s.slots := rfl
@[simp] theorem State.listen_inbound : (s.listen).inbound = s.inbound := rfl
@[simp] theorem State.listen_engine : (s.listen).engine = s.engine := rfl
@[simp] theorem State.listen_returns : (s.listen).returns = s.returns := rfl
@[simp] theorem State.listen_path : (s.listen).path = s.path := rfl
@[simp] theorem State.listen_signals : (s.listen).signals = s.signals := rfl
@[simp] theorem State.listen_contain : (s.listen).contain = s.contain := rfl
@[simp] theorem State.listen_completions : (s.listen).completions = s.completions := rfl
@[simp] theorem State.listen_port : (s.listen).port = s.port := rfl
@[simp] theorem State.listen_choices : (s.listen).choices = s.choices := rfl
@[simp] theorem State.listen_pending : (s.listen).pending = s.pending := rfl
@[simp] theorem State.listen_reachOf (d : Station) : (s.listen).reachOf d = s.reachOf d := rfl
@[simp] theorem State.listen_slot (i : SlotNo) : (s.listen).slot i = s.slot i := rfl
@[simp] theorem State.listen_signalOf (k : SignalNo) : (s.listen).signalOf k = s.signalOf k := rfl
@[simp] theorem State.listen_isSelf (m : Station) : (s.listen).isSelf m = s.isSelf m := rfl
@[simp] theorem State.listen_takesPart : (s.listen).takesPart = s.takesPart := rfl
@[simp] theorem State.listen_policy : (s.listen).policy = s.policy := rfl

/-! ## Send queue -/

@[simp] theorem State.releaseInFlight_held : (s.releaseInFlight).held = s.held := rfl
@[simp] theorem State.releaseInFlight_strap : (s.releaseInFlight).strap = s.strap := rfl
@[simp] theorem State.releaseInFlight_station : (s.releaseInFlight).station = s.station := rfl
@[simp] theorem State.releaseInFlight_config : (s.releaseInFlight).config = s.config := rfl
@[simp] theorem State.releaseInFlight_joinWatch : (s.releaseInFlight).joinWatch = s.joinWatch := rfl
@[simp] theorem State.releaseInFlight_helloPending : (s.releaseInFlight).helloPending = s.helloPending := rfl
@[simp] theorem State.releaseInFlight_span : (s.releaseInFlight).span = s.span := rfl
@[simp] theorem State.releaseInFlight_turn : (s.releaseInFlight).turn = s.turn := rfl
@[simp] theorem State.releaseInFlight_sendQueue :
    (s.releaseInFlight).sendQueue =
      s.sendQueue.map fun e => if e.inFlight then e.release else e := rfl
@[simp] theorem State.releaseInFlight_reach : (s.releaseInFlight).reach = s.reach := rfl
@[simp] theorem State.releaseInFlight_slots : (s.releaseInFlight).slots = s.slots := rfl
@[simp] theorem State.releaseInFlight_inbound : (s.releaseInFlight).inbound = s.inbound := rfl
@[simp] theorem State.releaseInFlight_engine : (s.releaseInFlight).engine = s.engine := rfl
@[simp] theorem State.releaseInFlight_returns : (s.releaseInFlight).returns = s.returns := rfl
@[simp] theorem State.releaseInFlight_path : (s.releaseInFlight).path = s.path := rfl
@[simp] theorem State.releaseInFlight_signals : (s.releaseInFlight).signals = s.signals := rfl
@[simp] theorem State.releaseInFlight_contain : (s.releaseInFlight).contain = s.contain := rfl
@[simp] theorem State.releaseInFlight_completions : (s.releaseInFlight).completions = s.completions := rfl
@[simp] theorem State.releaseInFlight_port : (s.releaseInFlight).port = s.port := rfl
@[simp] theorem State.releaseInFlight_choices : (s.releaseInFlight).choices = s.choices := rfl
@[simp] theorem State.releaseInFlight_pending : (s.releaseInFlight).pending = s.pending := rfl
@[simp] theorem State.releaseInFlight_reachOf (d : Station) : (s.releaseInFlight).reachOf d = s.reachOf d := rfl
@[simp] theorem State.releaseInFlight_slot (i : SlotNo) : (s.releaseInFlight).slot i = s.slot i := rfl
@[simp] theorem State.releaseInFlight_signalOf (k : SignalNo) : (s.releaseInFlight).signalOf k = s.signalOf k := rfl
@[simp] theorem State.releaseInFlight_isSelf (m : Station) : (s.releaseInFlight).isSelf m = s.isSelf m := rfl
@[simp] theorem State.releaseInFlight_takesPart : (s.releaseInFlight).takesPart = s.takesPart := rfl
@[simp] theorem State.releaseInFlight_policy : (s.releaseInFlight).policy = s.policy := rfl
@[simp] theorem State.releaseInFlight_source : (s.releaseInFlight).source? = s.source? := rfl

@[simp] theorem State.removeInFlight_held : (s.removeInFlight).held = s.held := rfl
@[simp] theorem State.removeInFlight_strap : (s.removeInFlight).strap = s.strap := rfl
@[simp] theorem State.removeInFlight_station : (s.removeInFlight).station = s.station := rfl
@[simp] theorem State.removeInFlight_config : (s.removeInFlight).config = s.config := rfl
@[simp] theorem State.removeInFlight_joinWatch : (s.removeInFlight).joinWatch = s.joinWatch := rfl
@[simp] theorem State.removeInFlight_helloPending : (s.removeInFlight).helloPending = s.helloPending := rfl
@[simp] theorem State.removeInFlight_span : (s.removeInFlight).span = s.span := rfl
@[simp] theorem State.removeInFlight_turn : (s.removeInFlight).turn = s.turn := rfl
@[simp] theorem State.removeInFlight_sendQueue : (s.removeInFlight).sendQueue = s.sendQueue.filter fun e => !e.inFlight := rfl
@[simp] theorem State.removeInFlight_reach : (s.removeInFlight).reach = s.reach := rfl
@[simp] theorem State.removeInFlight_slots : (s.removeInFlight).slots = s.slots := rfl
@[simp] theorem State.removeInFlight_inbound : (s.removeInFlight).inbound = s.inbound := rfl
@[simp] theorem State.removeInFlight_engine : (s.removeInFlight).engine = s.engine := rfl
@[simp] theorem State.removeInFlight_returns : (s.removeInFlight).returns = s.returns := rfl
@[simp] theorem State.removeInFlight_path : (s.removeInFlight).path = s.path := rfl
@[simp] theorem State.removeInFlight_signals : (s.removeInFlight).signals = s.signals := rfl
@[simp] theorem State.removeInFlight_contain : (s.removeInFlight).contain = s.contain := rfl
@[simp] theorem State.removeInFlight_completions : (s.removeInFlight).completions = s.completions := rfl
@[simp] theorem State.removeInFlight_port : (s.removeInFlight).port = s.port := rfl
@[simp] theorem State.removeInFlight_choices : (s.removeInFlight).choices = s.choices := rfl
@[simp] theorem State.removeInFlight_pending : (s.removeInFlight).pending = s.pending := rfl
@[simp] theorem State.removeInFlight_reachOf (d : Station) : (s.removeInFlight).reachOf d = s.reachOf d := rfl
@[simp] theorem State.removeInFlight_slot (i : SlotNo) : (s.removeInFlight).slot i = s.slot i := rfl
@[simp] theorem State.removeInFlight_signalOf (k : SignalNo) : (s.removeInFlight).signalOf k = s.signalOf k := rfl
@[simp] theorem State.removeInFlight_isSelf (m : Station) : (s.removeInFlight).isSelf m = s.isSelf m := rfl
@[simp] theorem State.removeInFlight_takesPart : (s.removeInFlight).takesPart = s.takesPart := rfl
@[simp] theorem State.removeInFlight_policy : (s.removeInFlight).policy = s.policy := rfl
@[simp] theorem State.removeInFlight_source : (s.removeInFlight).source? = s.source? := rfl

@[simp] theorem State.raiseFull_held : (s.raiseFull).held = s.held := rfl
@[simp] theorem State.raiseFull_strap : (s.raiseFull).strap = s.strap := rfl
@[simp] theorem State.raiseFull_station : (s.raiseFull).station = s.station := rfl
@[simp] theorem State.raiseFull_config : (s.raiseFull).config = s.config := rfl
@[simp] theorem State.raiseFull_joinWatch : (s.raiseFull).joinWatch = s.joinWatch := rfl
@[simp] theorem State.raiseFull_helloPending : (s.raiseFull).helloPending = s.helloPending := rfl
@[simp] theorem State.raiseFull_span : (s.raiseFull).span = s.span := rfl
@[simp] theorem State.raiseFull_turn : (s.raiseFull).turn = s.turn := rfl
@[simp] theorem State.raiseFull_sendQueue :
    (s.raiseFull).sendQueue =
      s.sendQueue.map fun e => if e.inFlight then { e.release with fullCount := e.fullCount + 1 } else e := rfl
@[simp] theorem State.raiseFull_reach : (s.raiseFull).reach = s.reach := rfl
@[simp] theorem State.raiseFull_slots : (s.raiseFull).slots = s.slots := rfl
@[simp] theorem State.raiseFull_inbound : (s.raiseFull).inbound = s.inbound := rfl
@[simp] theorem State.raiseFull_engine : (s.raiseFull).engine = s.engine := rfl
@[simp] theorem State.raiseFull_returns : (s.raiseFull).returns = s.returns := rfl
@[simp] theorem State.raiseFull_path : (s.raiseFull).path = s.path := rfl
@[simp] theorem State.raiseFull_signals : (s.raiseFull).signals = s.signals := rfl
@[simp] theorem State.raiseFull_contain : (s.raiseFull).contain = s.contain := rfl
@[simp] theorem State.raiseFull_completions : (s.raiseFull).completions = s.completions := rfl
@[simp] theorem State.raiseFull_port : (s.raiseFull).port = s.port := rfl
@[simp] theorem State.raiseFull_choices : (s.raiseFull).choices = s.choices := rfl
@[simp] theorem State.raiseFull_pending : (s.raiseFull).pending = s.pending := rfl
@[simp] theorem State.raiseFull_reachOf (d : Station) : (s.raiseFull).reachOf d = s.reachOf d := rfl
@[simp] theorem State.raiseFull_slot (i : SlotNo) : (s.raiseFull).slot i = s.slot i := rfl
@[simp] theorem State.raiseFull_signalOf (k : SignalNo) : (s.raiseFull).signalOf k = s.signalOf k := rfl
@[simp] theorem State.raiseFull_isSelf (m : Station) : (s.raiseFull).isSelf m = s.isSelf m := rfl
@[simp] theorem State.raiseFull_takesPart : (s.raiseFull).takesPart = s.takesPart := rfl
@[simp] theorem State.raiseFull_policy : (s.raiseFull).policy = s.policy := rfl
@[simp] theorem State.raiseFull_source : (s.raiseFull).source? = s.source? := rfl

/-! ## Inbound queue, apply engine, path and return list -/

@[simp] theorem State.settleProvisional_held (taken : Bool) : (s.settleProvisional taken).held = s.held := rfl
@[simp] theorem State.settleProvisional_strap (taken : Bool) : (s.settleProvisional taken).strap = s.strap := rfl
@[simp] theorem State.settleProvisional_station (taken : Bool) : (s.settleProvisional taken).station = s.station := rfl
@[simp] theorem State.settleProvisional_config (taken : Bool) : (s.settleProvisional taken).config = s.config := rfl
@[simp] theorem State.settleProvisional_joinWatch (taken : Bool) : (s.settleProvisional taken).joinWatch = s.joinWatch := rfl
@[simp] theorem State.settleProvisional_helloPending (taken : Bool) : (s.settleProvisional taken).helloPending = s.helloPending := rfl
@[simp] theorem State.settleProvisional_span (taken : Bool) : (s.settleProvisional taken).span = s.span := rfl
@[simp] theorem State.settleProvisional_turn (taken : Bool) : (s.settleProvisional taken).turn = s.turn := rfl
@[simp] theorem State.settleProvisional_sendQueue (taken : Bool) : (s.settleProvisional taken).sendQueue = s.sendQueue := rfl
@[simp] theorem State.settleProvisional_reach (taken : Bool) : (s.settleProvisional taken).reach = s.reach := rfl
@[simp] theorem State.settleProvisional_slots (taken : Bool) : (s.settleProvisional taken).slots = s.slots := rfl
@[simp] theorem State.settleProvisional_inbound (taken : Bool) :
    (s.settleProvisional taken).inbound =
      if taken then s.inbound.map fun e => { e with provisional := false }
      else s.inbound.filter fun e => !e.provisional := rfl
@[simp] theorem State.settleProvisional_engine (taken : Bool) : (s.settleProvisional taken).engine = s.engine := rfl
@[simp] theorem State.settleProvisional_returns (taken : Bool) : (s.settleProvisional taken).returns = s.returns := rfl
@[simp] theorem State.settleProvisional_path (taken : Bool) : (s.settleProvisional taken).path = s.path := rfl
@[simp] theorem State.settleProvisional_signals (taken : Bool) : (s.settleProvisional taken).signals = s.signals := rfl
@[simp] theorem State.settleProvisional_contain (taken : Bool) : (s.settleProvisional taken).contain = s.contain := rfl
@[simp] theorem State.settleProvisional_completions (taken : Bool) : (s.settleProvisional taken).completions = s.completions := rfl
@[simp] theorem State.settleProvisional_port (taken : Bool) : (s.settleProvisional taken).port = s.port := rfl
@[simp] theorem State.settleProvisional_choices (taken : Bool) : (s.settleProvisional taken).choices = s.choices := rfl
@[simp] theorem State.settleProvisional_pending (taken : Bool) : (s.settleProvisional taken).pending = s.pending := rfl
@[simp] theorem State.settleProvisional_reachOf (taken : Bool) (d : Station) : (s.settleProvisional taken).reachOf d = s.reachOf d := rfl
@[simp] theorem State.settleProvisional_slot (taken : Bool) (i : SlotNo) : (s.settleProvisional taken).slot i = s.slot i := rfl
@[simp] theorem State.settleProvisional_signalOf (taken : Bool) (k : SignalNo) : (s.settleProvisional taken).signalOf k = s.signalOf k := rfl
@[simp] theorem State.settleProvisional_isSelf (taken : Bool) (m : Station) : (s.settleProvisional taken).isSelf m = s.isSelf m := rfl
@[simp] theorem State.settleProvisional_takesPart (taken : Bool) : (s.settleProvisional taken).takesPart = s.takesPart := rfl
@[simp] theorem State.settleProvisional_policy (taken : Bool) : (s.settleProvisional taken).policy = s.policy := rfl
@[simp] theorem State.settleProvisional_source (taken : Bool) : (s.settleProvisional taken).source? = s.source? := rfl

@[simp] theorem State.dropHead_held : (s.dropHead).held = s.held := rfl
@[simp] theorem State.dropHead_strap : (s.dropHead).strap = s.strap := rfl
@[simp] theorem State.dropHead_station : (s.dropHead).station = s.station := rfl
@[simp] theorem State.dropHead_config : (s.dropHead).config = s.config := rfl
@[simp] theorem State.dropHead_joinWatch : (s.dropHead).joinWatch = s.joinWatch := rfl
@[simp] theorem State.dropHead_helloPending : (s.dropHead).helloPending = s.helloPending := rfl
@[simp] theorem State.dropHead_span : (s.dropHead).span = s.span := rfl
@[simp] theorem State.dropHead_turn : (s.dropHead).turn = s.turn := rfl
@[simp] theorem State.dropHead_sendQueue : (s.dropHead).sendQueue = s.sendQueue := rfl
@[simp] theorem State.dropHead_reach : (s.dropHead).reach = s.reach := rfl
@[simp] theorem State.dropHead_slots : (s.dropHead).slots = s.slots := rfl
@[simp] theorem State.dropHead_inbound : (s.dropHead).inbound = s.inbound.tail := rfl
@[simp] theorem State.dropHead_engine : (s.dropHead).engine = s.engine := rfl
@[simp] theorem State.dropHead_returns : (s.dropHead).returns = s.returns := rfl
@[simp] theorem State.dropHead_path : (s.dropHead).path = s.path := rfl
@[simp] theorem State.dropHead_signals : (s.dropHead).signals = s.signals := rfl
@[simp] theorem State.dropHead_contain : (s.dropHead).contain = s.contain := rfl
@[simp] theorem State.dropHead_completions : (s.dropHead).completions = s.completions := rfl
@[simp] theorem State.dropHead_port : (s.dropHead).port = s.port := rfl
@[simp] theorem State.dropHead_choices : (s.dropHead).choices = s.choices := rfl
@[simp] theorem State.dropHead_pending : (s.dropHead).pending = s.pending := rfl
@[simp] theorem State.dropHead_reachOf (d : Station) : (s.dropHead).reachOf d = s.reachOf d := rfl
@[simp] theorem State.dropHead_slot (i : SlotNo) : (s.dropHead).slot i = s.slot i := rfl
@[simp] theorem State.dropHead_signalOf (k : SignalNo) : (s.dropHead).signalOf k = s.signalOf k := rfl
@[simp] theorem State.dropHead_isSelf (m : Station) : (s.dropHead).isSelf m = s.isSelf m := rfl
@[simp] theorem State.dropHead_takesPart : (s.dropHead).takesPart = s.takesPart := rfl
@[simp] theorem State.dropHead_policy : (s.dropHead).policy = s.policy := rfl
@[simp] theorem State.dropHead_source : (s.dropHead).source? = s.source? := rfl

@[simp] theorem State.releaseReturn_held : (s.releaseReturn).held = s.held := rfl
@[simp] theorem State.releaseReturn_strap : (s.releaseReturn).strap = s.strap := rfl
@[simp] theorem State.releaseReturn_station : (s.releaseReturn).station = s.station := rfl
@[simp] theorem State.releaseReturn_config : (s.releaseReturn).config = s.config := rfl
@[simp] theorem State.releaseReturn_joinWatch : (s.releaseReturn).joinWatch = s.joinWatch := rfl
@[simp] theorem State.releaseReturn_helloPending : (s.releaseReturn).helloPending = s.helloPending := rfl
@[simp] theorem State.releaseReturn_span : (s.releaseReturn).span = s.span := rfl
@[simp] theorem State.releaseReturn_turn : (s.releaseReturn).turn = s.turn := rfl
@[simp] theorem State.releaseReturn_sendQueue : (s.releaseReturn).sendQueue = s.sendQueue := rfl
@[simp] theorem State.releaseReturn_reach : (s.releaseReturn).reach = s.reach := rfl
@[simp] theorem State.releaseReturn_slots : (s.releaseReturn).slots = s.slots := rfl
@[simp] theorem State.releaseReturn_inbound : (s.releaseReturn).inbound = s.inbound := rfl
@[simp] theorem State.releaseReturn_engine : (s.releaseReturn).engine = s.engine := rfl
@[simp] theorem State.releaseReturn_returns : (s.releaseReturn).returns = s.returns.map fun r => { r with inFlight := false } := rfl
@[simp] theorem State.releaseReturn_path : (s.releaseReturn).path = s.path := rfl
@[simp] theorem State.releaseReturn_signals : (s.releaseReturn).signals = s.signals := rfl
@[simp] theorem State.releaseReturn_contain : (s.releaseReturn).contain = s.contain := rfl
@[simp] theorem State.releaseReturn_completions : (s.releaseReturn).completions = s.completions := rfl
@[simp] theorem State.releaseReturn_port : (s.releaseReturn).port = s.port := rfl
@[simp] theorem State.releaseReturn_choices : (s.releaseReturn).choices = s.choices := rfl
@[simp] theorem State.releaseReturn_pending : (s.releaseReturn).pending = s.pending := rfl
@[simp] theorem State.releaseReturn_reachOf (d : Station) : (s.releaseReturn).reachOf d = s.reachOf d := rfl
@[simp] theorem State.releaseReturn_slot (i : SlotNo) : (s.releaseReturn).slot i = s.slot i := rfl
@[simp] theorem State.releaseReturn_signalOf (k : SignalNo) : (s.releaseReturn).signalOf k = s.signalOf k := rfl
@[simp] theorem State.releaseReturn_isSelf (m : Station) : (s.releaseReturn).isSelf m = s.isSelf m := rfl
@[simp] theorem State.releaseReturn_takesPart : (s.releaseReturn).takesPart = s.takesPart := rfl
@[simp] theorem State.releaseReturn_policy : (s.releaseReturn).policy = s.policy := rfl
@[simp] theorem State.releaseReturn_source : (s.releaseReturn).source? = s.source? := rfl

@[simp] theorem State.startApply_held (a : Access) : (s.startApply a).held = s.held := rfl
@[simp] theorem State.startApply_strap (a : Access) : (s.startApply a).strap = s.strap := rfl
@[simp] theorem State.startApply_station (a : Access) : (s.startApply a).station = s.station := rfl
@[simp] theorem State.startApply_config (a : Access) : (s.startApply a).config = s.config := rfl
@[simp] theorem State.startApply_joinWatch (a : Access) : (s.startApply a).joinWatch = s.joinWatch := rfl
@[simp] theorem State.startApply_helloPending (a : Access) : (s.startApply a).helloPending = s.helloPending := rfl
@[simp] theorem State.startApply_span (a : Access) : (s.startApply a).span = s.span := rfl
@[simp] theorem State.startApply_turn (a : Access) : (s.startApply a).turn = s.turn := rfl
@[simp] theorem State.startApply_sendQueue (a : Access) : (s.startApply a).sendQueue = s.sendQueue := rfl
@[simp] theorem State.startApply_reach (a : Access) : (s.startApply a).reach = s.reach := rfl
@[simp] theorem State.startApply_slots (a : Access) : (s.startApply a).slots = s.slots := rfl
@[simp] theorem State.startApply_inbound (a : Access) : (s.startApply a).inbound = s.inbound := rfl
@[simp] theorem State.startApply_engine (a : Access) : (s.startApply a).engine = .inAccess := rfl
@[simp] theorem State.startApply_returns (a : Access) : (s.startApply a).returns = s.returns := rfl
@[simp] theorem State.startApply_path (a : Access) :
    (s.startApply a).path =
      { s.path with state := .busy .apply a, applyWaiting := none, lastServed := .apply } := rfl
@[simp] theorem State.startApply_signals (a : Access) : (s.startApply a).signals = s.signals := rfl
@[simp] theorem State.startApply_contain (a : Access) : (s.startApply a).contain = s.contain := rfl
@[simp] theorem State.startApply_completions (a : Access) : (s.startApply a).completions = s.completions := rfl
@[simp] theorem State.startApply_port (a : Access) : (s.startApply a).port = s.port := rfl
@[simp] theorem State.startApply_choices (a : Access) : (s.startApply a).choices = s.choices := rfl
@[simp] theorem State.startApply_pending (a : Access) : (s.startApply a).pending = s.pending := rfl
@[simp] theorem State.startApply_reachOf (a : Access) (d : Station) : (s.startApply a).reachOf d = s.reachOf d := rfl
@[simp] theorem State.startApply_slot (a : Access) (i : SlotNo) : (s.startApply a).slot i = s.slot i := rfl
@[simp] theorem State.startApply_signalOf (a : Access) (k : SignalNo) : (s.startApply a).signalOf k = s.signalOf k := rfl
@[simp] theorem State.startApply_isSelf (a : Access) (m : Station) : (s.startApply a).isSelf m = s.isSelf m := rfl
@[simp] theorem State.startApply_takesPart (a : Access) : (s.startApply a).takesPart = s.takesPart := rfl
@[simp] theorem State.startApply_policy (a : Access) : (s.startApply a).policy = s.policy := rfl
@[simp] theorem State.startApply_source (a : Access) : (s.startApply a).source? = s.source? := rfl

@[simp] theorem State.startLanding_held (t : SlotNo) (a : Access) (rest : List (SlotNo × Access)) :
    (s.startLanding t a rest).held =
      s.held := rfl
@[simp] theorem State.startLanding_strap (t : SlotNo) (a : Access) (rest : List (SlotNo × Access)) :
    (s.startLanding t a rest).strap =
      s.strap := rfl
@[simp] theorem State.startLanding_station (t : SlotNo) (a : Access) (rest : List (SlotNo × Access)) :
    (s.startLanding t a rest).station =
      s.station := rfl
@[simp] theorem State.startLanding_config (t : SlotNo) (a : Access) (rest : List (SlotNo × Access)) :
    (s.startLanding t a rest).config =
      s.config := rfl
@[simp] theorem State.startLanding_joinWatch (t : SlotNo) (a : Access) (rest : List (SlotNo × Access)) :
    (s.startLanding t a rest).joinWatch =
      s.joinWatch := rfl
@[simp] theorem State.startLanding_helloPending (t : SlotNo) (a : Access) (rest : List (SlotNo × Access)) :
    (s.startLanding t a rest).helloPending =
      s.helloPending := rfl
@[simp] theorem State.startLanding_span (t : SlotNo) (a : Access) (rest : List (SlotNo × Access)) :
    (s.startLanding t a rest).span =
      s.span := rfl
@[simp] theorem State.startLanding_turn (t : SlotNo) (a : Access) (rest : List (SlotNo × Access)) :
    (s.startLanding t a rest).turn =
      s.turn := rfl
@[simp] theorem State.startLanding_sendQueue (t : SlotNo) (a : Access) (rest : List (SlotNo × Access)) :
    (s.startLanding t a rest).sendQueue =
      s.sendQueue := rfl
@[simp] theorem State.startLanding_reach (t : SlotNo) (a : Access) (rest : List (SlotNo × Access)) :
    (s.startLanding t a rest).reach =
      s.reach := rfl
@[simp] theorem State.startLanding_slots (t : SlotNo) (a : Access) (rest : List (SlotNo × Access)) :
    (s.startLanding t a rest).slots =
      s.slots := rfl
@[simp] theorem State.startLanding_inbound (t : SlotNo) (a : Access) (rest : List (SlotNo × Access)) :
    (s.startLanding t a rest).inbound =
      s.inbound := rfl
@[simp] theorem State.startLanding_engine (t : SlotNo) (a : Access) (rest : List (SlotNo × Access)) :
    (s.startLanding t a rest).engine =
      s.engine := rfl
@[simp] theorem State.startLanding_returns (t : SlotNo) (a : Access) (rest : List (SlotNo × Access)) :
    (s.startLanding t a rest).returns =
      s.returns := rfl
@[simp] theorem State.startLanding_path (t : SlotNo) (a : Access) (rest : List (SlotNo × Access)) :
    (s.startLanding t a rest).path =
      { s.path with state := .busy (.landing t) a, landingWaiting := rest, lastServed := .landing } := rfl
@[simp] theorem State.startLanding_signals (t : SlotNo) (a : Access) (rest : List (SlotNo × Access)) :
    (s.startLanding t a rest).signals =
      s.signals := rfl
@[simp] theorem State.startLanding_contain (t : SlotNo) (a : Access) (rest : List (SlotNo × Access)) :
    (s.startLanding t a rest).contain =
      s.contain := rfl
@[simp] theorem State.startLanding_completions (t : SlotNo) (a : Access) (rest : List (SlotNo × Access)) :
    (s.startLanding t a rest).completions =
      s.completions := rfl
@[simp] theorem State.startLanding_port (t : SlotNo) (a : Access) (rest : List (SlotNo × Access)) :
    (s.startLanding t a rest).port =
      s.port := rfl
@[simp] theorem State.startLanding_choices (t : SlotNo) (a : Access) (rest : List (SlotNo × Access)) :
    (s.startLanding t a rest).choices =
      s.choices := rfl
@[simp] theorem State.startLanding_pending (t : SlotNo) (a : Access) (rest : List (SlotNo × Access)) :
    (s.startLanding t a rest).pending =
      s.pending := rfl
@[simp] theorem State.startLanding_reachOf (t : SlotNo) (a : Access) (rest : List (SlotNo × Access)) (d : Station) : (s.startLanding t a rest).reachOf d = s.reachOf d := rfl
@[simp] theorem State.startLanding_slot (t : SlotNo) (a : Access) (rest : List (SlotNo × Access)) (i : SlotNo) : (s.startLanding t a rest).slot i = s.slot i := rfl
@[simp] theorem State.startLanding_signalOf (t : SlotNo) (a : Access) (rest : List (SlotNo × Access)) (k : SignalNo) : (s.startLanding t a rest).signalOf k = s.signalOf k := rfl
@[simp] theorem State.startLanding_isSelf (t : SlotNo) (a : Access) (rest : List (SlotNo × Access)) (m : Station) : (s.startLanding t a rest).isSelf m = s.isSelf m := rfl
@[simp] theorem State.startLanding_takesPart (t : SlotNo) (a : Access) (rest : List (SlotNo × Access)) : (s.startLanding t a rest).takesPart = s.takesPart := rfl
@[simp] theorem State.startLanding_policy (t : SlotNo) (a : Access) (rest : List (SlotNo × Access)) : (s.startLanding t a rest).policy = s.policy := rfl
@[simp] theorem State.startLanding_source (t : SlotNo) (a : Access) (rest : List (SlotNo × Access)) : (s.startLanding t a rest).source? = s.source? := rfl

/-! ## Containment unit -/

@[simp] theorem State.addFault_held (r : FaultRecord) : (s.addFault r).held = s.held := rfl
@[simp] theorem State.addFault_strap (r : FaultRecord) : (s.addFault r).strap = s.strap := rfl
@[simp] theorem State.addFault_station (r : FaultRecord) : (s.addFault r).station = s.station := rfl
@[simp] theorem State.addFault_config (r : FaultRecord) : (s.addFault r).config = s.config := rfl
@[simp] theorem State.addFault_joinWatch (r : FaultRecord) : (s.addFault r).joinWatch = s.joinWatch := rfl
@[simp] theorem State.addFault_helloPending (r : FaultRecord) : (s.addFault r).helloPending = s.helloPending := rfl
@[simp] theorem State.addFault_span (r : FaultRecord) : (s.addFault r).span = s.span := rfl
@[simp] theorem State.addFault_turn (r : FaultRecord) : (s.addFault r).turn = s.turn := rfl
@[simp] theorem State.addFault_sendQueue (r : FaultRecord) : (s.addFault r).sendQueue = s.sendQueue := rfl
@[simp] theorem State.addFault_reach (r : FaultRecord) : (s.addFault r).reach = s.reach := rfl
@[simp] theorem State.addFault_slots (r : FaultRecord) : (s.addFault r).slots = s.slots := rfl
@[simp] theorem State.addFault_inbound (r : FaultRecord) : (s.addFault r).inbound = s.inbound := rfl
@[simp] theorem State.addFault_engine (r : FaultRecord) : (s.addFault r).engine = s.engine := rfl
@[simp] theorem State.addFault_returns (r : FaultRecord) : (s.addFault r).returns = s.returns := rfl
@[simp] theorem State.addFault_path (r : FaultRecord) : (s.addFault r).path = s.path := rfl
@[simp] theorem State.addFault_signals (r : FaultRecord) : (s.addFault r).signals = s.signals := rfl
@[simp] theorem State.addFault_contain (r : FaultRecord) :
    (s.addFault r).contain =
      if s.contain.log.length < Config.faultCapacity then { s.contain with log := s.contain.log ++ [r] }
      else { s.contain with overflow := bump s.contain.overflow } := rfl
@[simp] theorem State.addFault_completions (r : FaultRecord) : (s.addFault r).completions = s.completions := rfl
@[simp] theorem State.addFault_port (r : FaultRecord) : (s.addFault r).port = s.port := rfl
@[simp] theorem State.addFault_choices (r : FaultRecord) : (s.addFault r).choices = s.choices := rfl
@[simp] theorem State.addFault_pending (r : FaultRecord) : (s.addFault r).pending = s.pending := rfl
@[simp] theorem State.addFault_reachOf (r : FaultRecord) (d : Station) : (s.addFault r).reachOf d = s.reachOf d := rfl
@[simp] theorem State.addFault_slot (r : FaultRecord) (i : SlotNo) : (s.addFault r).slot i = s.slot i := rfl
@[simp] theorem State.addFault_signalOf (r : FaultRecord) (k : SignalNo) : (s.addFault r).signalOf k = s.signalOf k := rfl
@[simp] theorem State.addFault_isSelf (r : FaultRecord) (m : Station) : (s.addFault r).isSelf m = s.isSelf m := rfl
@[simp] theorem State.addFault_takesPart (r : FaultRecord) : (s.addFault r).takesPart = s.takesPart := rfl
@[simp] theorem State.addFault_policy (r : FaultRecord) : (s.addFault r).policy = s.policy := rfl
@[simp] theorem State.addFault_source (r : FaultRecord) : (s.addFault r).source? = s.source? := rfl

@[simp] theorem State.setContained_held (cause : FaultCause) (addr : Word) (length : Nat) :
    (s.setContained cause addr length).held =
      s.held := rfl
@[simp] theorem State.setContained_strap (cause : FaultCause) (addr : Word) (length : Nat) :
    (s.setContained cause addr length).strap =
      s.strap := rfl
@[simp] theorem State.setContained_station (cause : FaultCause) (addr : Word) (length : Nat) :
    (s.setContained cause addr length).station =
      .contained := rfl
@[simp] theorem State.setContained_config (cause : FaultCause) (addr : Word) (length : Nat) :
    (s.setContained cause addr length).config =
      s.config := rfl
@[simp] theorem State.setContained_joinWatch (cause : FaultCause) (addr : Word) (length : Nat) :
    (s.setContained cause addr length).joinWatch =
      s.joinWatch := rfl
@[simp] theorem State.setContained_helloPending (cause : FaultCause) (addr : Word) (length : Nat) :
    (s.setContained cause addr length).helloPending =
      s.helloPending := rfl
@[simp] theorem State.setContained_span (cause : FaultCause) (addr : Word) (length : Nat) :
    (s.setContained cause addr length).span =
      s.span := rfl
@[simp] theorem State.setContained_turn (cause : FaultCause) (addr : Word) (length : Nat) :
    (s.setContained cause addr length).turn =
      s.turn := rfl
@[simp] theorem State.setContained_sendQueue (cause : FaultCause) (addr : Word) (length : Nat) :
    (s.setContained cause addr length).sendQueue =
      s.sendQueue := rfl
@[simp] theorem State.setContained_reach (cause : FaultCause) (addr : Word) (length : Nat) :
    (s.setContained cause addr length).reach =
      s.reach := rfl
@[simp] theorem State.setContained_slots (cause : FaultCause) (addr : Word) (length : Nat) :
    (s.setContained cause addr length).slots =
      s.slots := rfl
@[simp] theorem State.setContained_inbound (cause : FaultCause) (addr : Word) (length : Nat) :
    (s.setContained cause addr length).inbound =
      s.inbound := rfl
@[simp] theorem State.setContained_engine (cause : FaultCause) (addr : Word) (length : Nat) :
    (s.setContained cause addr length).engine =
      s.engine := rfl
@[simp] theorem State.setContained_returns (cause : FaultCause) (addr : Word) (length : Nat) :
    (s.setContained cause addr length).returns =
      s.returns := rfl
@[simp] theorem State.setContained_path (cause : FaultCause) (addr : Word) (length : Nat) :
    (s.setContained cause addr length).path =
      s.path := rfl
@[simp] theorem State.setContained_signals (cause : FaultCause) (addr : Word) (length : Nat) :
    (s.setContained cause addr length).signals =
      s.signals := rfl
@[simp] theorem State.setContained_contain (cause : FaultCause) (addr : Word) (length : Nat) :
    (s.setContained cause addr length).contain =
      { s.contain with
        flag := true, cause := some cause, late := 0
        pendingContain := some { mode := .halted, cause := cause, named := 0, addr := addr, length := length } } := rfl
@[simp] theorem State.setContained_completions (cause : FaultCause) (addr : Word) (length : Nat) :
    (s.setContained cause addr length).completions =
      s.completions := rfl
@[simp] theorem State.setContained_port (cause : FaultCause) (addr : Word) (length : Nat) :
    (s.setContained cause addr length).port =
      s.port := rfl
@[simp] theorem State.setContained_choices (cause : FaultCause) (addr : Word) (length : Nat) :
    (s.setContained cause addr length).choices =
      s.choices := rfl
@[simp] theorem State.setContained_pending (cause : FaultCause) (addr : Word) (length : Nat) :
    (s.setContained cause addr length).pending =
      s.pending := rfl
@[simp] theorem State.setContained_reachOf (cause : FaultCause) (addr : Word) (length : Nat) (d : Station) : (s.setContained cause addr length).reachOf d = s.reachOf d := rfl
@[simp] theorem State.setContained_slot (cause : FaultCause) (addr : Word) (length : Nat) (i : SlotNo) : (s.setContained cause addr length).slot i = s.slot i := rfl
@[simp] theorem State.setContained_signalOf (cause : FaultCause) (addr : Word) (length : Nat) (k : SignalNo) : (s.setContained cause addr length).signalOf k = s.signalOf k := rfl
@[simp] theorem State.setContained_isSelf (cause : FaultCause) (addr : Word) (length : Nat) (m : Station) : (s.setContained cause addr length).isSelf m = s.isSelf m := rfl
@[simp] theorem State.setContained_policy (cause : FaultCause) (addr : Word) (length : Nat) : (s.setContained cause addr length).policy = s.policy := rfl
@[simp] theorem State.setContained_source (cause : FaultCause) (addr : Word) (length : Nat) : (s.setContained cause addr length).source? = s.source? := rfl

/-! ## Completion queue and node port -/

@[simp] theorem State.handOn_held (streams : List (List Group)) : (s.handOn streams).held = s.held := rfl
@[simp] theorem State.handOn_strap (streams : List (List Group)) : (s.handOn streams).strap = s.strap := rfl
@[simp] theorem State.handOn_station (streams : List (List Group)) : (s.handOn streams).station = s.station := rfl
@[simp] theorem State.handOn_config (streams : List (List Group)) : (s.handOn streams).config = s.config := rfl
@[simp] theorem State.handOn_joinWatch (streams : List (List Group)) : (s.handOn streams).joinWatch = s.joinWatch := rfl
@[simp] theorem State.handOn_helloPending (streams : List (List Group)) : (s.handOn streams).helloPending = s.helloPending := rfl
@[simp] theorem State.handOn_span (streams : List (List Group)) : (s.handOn streams).span = s.span := rfl
@[simp] theorem State.handOn_turn (streams : List (List Group)) : (s.handOn streams).turn = s.turn := rfl
@[simp] theorem State.handOn_sendQueue (streams : List (List Group)) : (s.handOn streams).sendQueue = s.sendQueue := rfl
@[simp] theorem State.handOn_reach (streams : List (List Group)) : (s.handOn streams).reach = s.reach := rfl
@[simp] theorem State.handOn_slots (streams : List (List Group)) : (s.handOn streams).slots = s.slots := rfl
@[simp] theorem State.handOn_inbound (streams : List (List Group)) : (s.handOn streams).inbound = s.inbound := rfl
@[simp] theorem State.handOn_engine (streams : List (List Group)) : (s.handOn streams).engine = s.engine := rfl
@[simp] theorem State.handOn_returns (streams : List (List Group)) : (s.handOn streams).returns = s.returns := rfl
@[simp] theorem State.handOn_path (streams : List (List Group)) : (s.handOn streams).path = s.path := rfl
@[simp] theorem State.handOn_signals (streams : List (List Group)) : (s.handOn streams).signals = s.signals := rfl
@[simp] theorem State.handOn_contain (streams : List (List Group)) : (s.handOn streams).contain = s.contain := rfl
@[simp] theorem State.handOn_completions (streams : List (List Group)) :
    (s.handOn streams).completions =
      (arrange (Config.choice s.choices) streams).foldl push s.completions := rfl
@[simp] theorem State.handOn_port (streams : List (List Group)) : (s.handOn streams).port = s.port := rfl
@[simp] theorem State.handOn_choices (streams : List (List Group)) :
    (s.handOn streams).choices =
      if (live streams).length ≤ 1 then s.choices else s.choices + 1 := rfl
@[simp] theorem State.handOn_pending (streams : List (List Group)) : (s.handOn streams).pending = s.pending := rfl
@[simp] theorem State.handOn_reachOf (streams : List (List Group)) (d : Station) : (s.handOn streams).reachOf d = s.reachOf d := rfl
@[simp] theorem State.handOn_slot (streams : List (List Group)) (i : SlotNo) : (s.handOn streams).slot i = s.slot i := rfl
@[simp] theorem State.handOn_signalOf (streams : List (List Group)) (k : SignalNo) : (s.handOn streams).signalOf k = s.signalOf k := rfl
@[simp] theorem State.handOn_isSelf (streams : List (List Group)) (m : Station) : (s.handOn streams).isSelf m = s.isSelf m := rfl
@[simp] theorem State.handOn_takesPart (streams : List (List Group)) : (s.handOn streams).takesPart = s.takesPart := rfl
@[simp] theorem State.handOn_policy (streams : List (List Group)) : (s.handOn streams).policy = s.policy := rfl
@[simp] theorem State.handOn_source (streams : List (List Group)) : (s.handOn streams).source? = s.source? := rfl

@[simp] theorem State.answer_held (r : Result) : (s.answer r).held = s.held := rfl
@[simp] theorem State.answer_strap (r : Result) : (s.answer r).strap = s.strap := rfl
@[simp] theorem State.answer_station (r : Result) : (s.answer r).station = s.station := rfl
@[simp] theorem State.answer_config (r : Result) : (s.answer r).config = s.config := rfl
@[simp] theorem State.answer_joinWatch (r : Result) : (s.answer r).joinWatch = s.joinWatch := rfl
@[simp] theorem State.answer_helloPending (r : Result) : (s.answer r).helloPending = s.helloPending := rfl
@[simp] theorem State.answer_span (r : Result) : (s.answer r).span = s.span := rfl
@[simp] theorem State.answer_turn (r : Result) : (s.answer r).turn = s.turn := rfl
@[simp] theorem State.answer_sendQueue (r : Result) : (s.answer r).sendQueue = s.sendQueue := rfl
@[simp] theorem State.answer_reach (r : Result) : (s.answer r).reach = s.reach := rfl
@[simp] theorem State.answer_slots (r : Result) : (s.answer r).slots = s.slots := rfl
@[simp] theorem State.answer_inbound (r : Result) : (s.answer r).inbound = s.inbound := rfl
@[simp] theorem State.answer_engine (r : Result) : (s.answer r).engine = s.engine := rfl
@[simp] theorem State.answer_returns (r : Result) : (s.answer r).returns = s.returns := rfl
@[simp] theorem State.answer_path (r : Result) : (s.answer r).path = s.path := rfl
@[simp] theorem State.answer_signals (r : Result) : (s.answer r).signals = s.signals := rfl
@[simp] theorem State.answer_contain (r : Result) : (s.answer r).contain = s.contain := rfl
@[simp] theorem State.answer_completions (r : Result) : (s.answer r).completions = s.completions := rfl
@[simp] theorem State.answer_port (r : Result) : (s.answer r).port = { s.port with result := r } := rfl
@[simp] theorem State.answer_choices (r : Result) : (s.answer r).choices = s.choices := rfl
@[simp] theorem State.answer_pending (r : Result) : (s.answer r).pending = s.pending := rfl
@[simp] theorem State.answer_reachOf (r : Result) (d : Station) : (s.answer r).reachOf d = s.reachOf d := rfl
@[simp] theorem State.answer_slot (r : Result) (i : SlotNo) : (s.answer r).slot i = s.slot i := rfl
@[simp] theorem State.answer_signalOf (r : Result) (k : SignalNo) : (s.answer r).signalOf k = s.signalOf k := rfl
@[simp] theorem State.answer_isSelf (r : Result) (m : Station) : (s.answer r).isSelf m = s.isSelf m := rfl
@[simp] theorem State.answer_takesPart (r : Result) : (s.answer r).takesPart = s.takesPart := rfl
@[simp] theorem State.answer_policy (r : Result) : (s.answer r).policy = s.policy := rfl
@[simp] theorem State.answer_source (r : Result) : (s.answer r).source? = s.source? := rfl

@[simp] theorem State.answerView_held (v : Vector Word 4) : (s.answerView v).held = s.held := rfl
@[simp] theorem State.answerView_strap (v : Vector Word 4) : (s.answerView v).strap = s.strap := rfl
@[simp] theorem State.answerView_station (v : Vector Word 4) : (s.answerView v).station = s.station := rfl
@[simp] theorem State.answerView_config (v : Vector Word 4) : (s.answerView v).config = s.config := rfl
@[simp] theorem State.answerView_joinWatch (v : Vector Word 4) : (s.answerView v).joinWatch = s.joinWatch := rfl
@[simp] theorem State.answerView_helloPending (v : Vector Word 4) : (s.answerView v).helloPending = s.helloPending := rfl
@[simp] theorem State.answerView_span (v : Vector Word 4) : (s.answerView v).span = s.span := rfl
@[simp] theorem State.answerView_turn (v : Vector Word 4) : (s.answerView v).turn = s.turn := rfl
@[simp] theorem State.answerView_sendQueue (v : Vector Word 4) : (s.answerView v).sendQueue = s.sendQueue := rfl
@[simp] theorem State.answerView_reach (v : Vector Word 4) : (s.answerView v).reach = s.reach := rfl
@[simp] theorem State.answerView_slots (v : Vector Word 4) : (s.answerView v).slots = s.slots := rfl
@[simp] theorem State.answerView_inbound (v : Vector Word 4) : (s.answerView v).inbound = s.inbound := rfl
@[simp] theorem State.answerView_engine (v : Vector Word 4) : (s.answerView v).engine = s.engine := rfl
@[simp] theorem State.answerView_returns (v : Vector Word 4) : (s.answerView v).returns = s.returns := rfl
@[simp] theorem State.answerView_path (v : Vector Word 4) : (s.answerView v).path = s.path := rfl
@[simp] theorem State.answerView_signals (v : Vector Word 4) : (s.answerView v).signals = s.signals := rfl
@[simp] theorem State.answerView_contain (v : Vector Word 4) : (s.answerView v).contain = s.contain := rfl
@[simp] theorem State.answerView_completions (v : Vector Word 4) : (s.answerView v).completions = s.completions := rfl
@[simp] theorem State.answerView_port (v : Vector Word 4) :
    (s.answerView v).port =
      { s.port with result := .accepted, resultView := v } := rfl
@[simp] theorem State.answerView_choices (v : Vector Word 4) : (s.answerView v).choices = s.choices := rfl
@[simp] theorem State.answerView_pending (v : Vector Word 4) : (s.answerView v).pending = s.pending := rfl
@[simp] theorem State.answerView_reachOf (v : Vector Word 4) (d : Station) : (s.answerView v).reachOf d = s.reachOf d := rfl
@[simp] theorem State.answerView_slot (v : Vector Word 4) (i : SlotNo) : (s.answerView v).slot i = s.slot i := rfl
@[simp] theorem State.answerView_signalOf (v : Vector Word 4) (k : SignalNo) : (s.answerView v).signalOf k = s.signalOf k := rfl
@[simp] theorem State.answerView_isSelf (v : Vector Word 4) (m : Station) : (s.answerView v).isSelf m = s.isSelf m := rfl
@[simp] theorem State.answerView_takesPart (v : Vector Word 4) : (s.answerView v).takesPart = s.takesPart := rfl
@[simp] theorem State.answerView_policy (v : Vector Word 4) : (s.answerView v).policy = s.policy := rfl
@[simp] theorem State.answerView_source (v : Vector Word 4) : (s.answerView v).source? = s.source? := rfl

@[simp] theorem State.returned_held (w : Word) : (s.returned w).held = s.held := rfl
@[simp] theorem State.returned_strap (w : Word) : (s.returned w).strap = s.strap := rfl
@[simp] theorem State.returned_station (w : Word) : (s.returned w).station = s.station := rfl
@[simp] theorem State.returned_config (w : Word) : (s.returned w).config = s.config := rfl
@[simp] theorem State.returned_joinWatch (w : Word) : (s.returned w).joinWatch = s.joinWatch := rfl
@[simp] theorem State.returned_helloPending (w : Word) : (s.returned w).helloPending = s.helloPending := rfl
@[simp] theorem State.returned_span (w : Word) : (s.returned w).span = s.span := rfl
@[simp] theorem State.returned_turn (w : Word) : (s.returned w).turn = s.turn := rfl
@[simp] theorem State.returned_sendQueue (w : Word) : (s.returned w).sendQueue = s.sendQueue := rfl
@[simp] theorem State.returned_reach (w : Word) : (s.returned w).reach = s.reach := rfl
@[simp] theorem State.returned_slots (w : Word) : (s.returned w).slots = s.slots := rfl
@[simp] theorem State.returned_inbound (w : Word) : (s.returned w).inbound = s.inbound := rfl
@[simp] theorem State.returned_engine (w : Word) : (s.returned w).engine = s.engine := rfl
@[simp] theorem State.returned_returns (w : Word) : (s.returned w).returns = s.returns := rfl
@[simp] theorem State.returned_path (w : Word) : (s.returned w).path = s.path := rfl
@[simp] theorem State.returned_signals (w : Word) : (s.returned w).signals = s.signals := rfl
@[simp] theorem State.returned_contain (w : Word) : (s.returned w).contain = s.contain := rfl
@[simp] theorem State.returned_completions (w : Word) : (s.returned w).completions = s.completions := rfl
@[simp] theorem State.returned_port (w : Word) : (s.returned w).port = { s.port with takeWord := w } := rfl
@[simp] theorem State.returned_choices (w : Word) : (s.returned w).choices = s.choices := rfl
@[simp] theorem State.returned_pending (w : Word) : (s.returned w).pending = s.pending := rfl
@[simp] theorem State.returned_reachOf (w : Word) (d : Station) : (s.returned w).reachOf d = s.reachOf d := rfl
@[simp] theorem State.returned_slot (w : Word) (i : SlotNo) : (s.returned w).slot i = s.slot i := rfl
@[simp] theorem State.returned_signalOf (w : Word) (k : SignalNo) : (s.returned w).signalOf k = s.signalOf k := rfl
@[simp] theorem State.returned_isSelf (w : Word) (m : Station) : (s.returned w).isSelf m = s.isSelf m := rfl
@[simp] theorem State.returned_takesPart (w : Word) : (s.returned w).takesPart = s.takesPart := rfl
@[simp] theorem State.returned_policy (w : Word) : (s.returned w).policy = s.policy := rfl
@[simp] theorem State.returned_source (w : Word) : (s.returned w).source? = s.source? := rfl

/-! ## The tables after the replacement of one entry -/

@[simp] theorem State.reachOf_setReach_same (n : Station) (e : ReachEntry) : (s.setReach n e).reachOf n = e := by
  simp [State.reachOf, State.setReach]

theorem State.reachOf_setReach (n d : Station) (e : ReachEntry) :
    (s.setReach n e).reachOf d = if d = n then e else s.reachOf d := by
  by_cases h : d = n
  · simp [h]
  · have : n.val ≠ d.val := fun h' => h (Fin.ext h'.symm)
    simp [State.reachOf, State.setReach, h, this]

@[simp] theorem State.slot_setSlot_same (t : SlotNo) (f : FetchSlot) : (s.setSlot t f).slot t = f := by
  simp [State.slot, State.setSlot]

theorem State.slot_setSlot (t i : SlotNo) (f : FetchSlot) : (s.setSlot t f).slot i = if i = t then f else s.slot i := by
  by_cases h : i = t
  · simp [h]
  · have : t.val ≠ i.val := fun h' => h (Fin.ext h'.symm)
    simp [State.slot, State.setSlot, h, this]

@[simp] theorem State.signalOf_setSignal_same (n : SignalNo) (e : SignalEntry) : (s.setSignal n e).signalOf n = e := by
  simp [State.signalOf, State.setSignal]

theorem State.signalOf_setSignal (n k : SignalNo) (e : SignalEntry) :
    (s.setSignal n e).signalOf k = if k = n then e else s.signalOf k := by
  by_cases h : k = n
  · simp [h]
  · have : n.val ≠ k.val := fun h' => h (Fin.ext h'.symm)
    simp [State.signalOf, State.setSignal, h, this]

/-- A table given slot by slot. -/
theorem State.slot_ofFn (g : SlotNo → FetchSlot) (i : SlotNo) : ({ s with slots := Vector.ofFn g } : State).slot i = g i := by
  simp [State.slot]

theorem State.signalOf_ofFn (g : SignalNo → SignalEntry) (k : SignalNo) :
    ({ s with signals := Vector.ofFn g } : State).signalOf k = g k := by
  simp [State.signalOf]

theorem reachReset_reachOf (strap : BitVec 4) (d : Station) :
    ({ s with reach := reachReset strap } : State).reachOf d =
      { state := if d.val = strap.toNat then .self else .unknown, silence := 0, timer := .stopped } := by
  simp [State.reachOf, reachReset]

end Sys2Proof.Machine
end

