-- ==== Sys2Proof/Laws/Completions.lean ====
section
/-! SUPPORT. The completion queue: what one record does to it, and in which orders the records of one event join it (R53, R174 to R178). -/

namespace Sys2Proof.Machine

/-! ## One record -/

@[simp] theorem push_request (q : List Completion) (cookie : BitVec 16) (k : RequestKind) (d : Station) (st : Status) :
    push q (.request cookie k d st) = q ++ [.request cookie k d st] := rfl

@[simp] theorem push_signal (q : List Completion) (n : SignalNo) (f : Station) : push q (.signal n f) = q ++ [.signal n f] := rfl

theorem push_notice_new (q : List Completion) (k : NoticeKind) (n arg : Nat) (h : q.any (Completion.isNotice k) = false) :
    push q (.station k n arg) = q ++ [.station k n arg] := by
  simp [push, h]

theorem push_notice_again (q : List Completion) (k : NoticeKind) (n arg : Nat) (h : q.any (Completion.isNotice k) = true) :
    push q (.station k n arg) = q.map (coalesce k arg) := by
  simp [push, h]

/-- A record that is no station notice joins at the tail. -/
theorem push_of_not_notice (q : List Completion) (c : Completion) (h : ∀ k, c.isNotice k = false) : push q c = q ++ [c] := by
  cases c with
  | station k n a => simpa [Completion.isNotice] using h k
  | _ => rfl

/-- A run of records without a station notice joins at the tail as it is. -/
theorem foldl_push_of_not_notice (g q : List Completion) (h : ∀ c ∈ g, ∀ k, c.isNotice k = false) : g.foldl push q = q ++ g := by
  induction g generalizing q with
  | nil => simp
  | cons c g ih =>
    rw [List.foldl_cons, push_of_not_notice q c (h c (by simp)), ih _ fun x hx => h x (by simp [hx])]
    simp

theorem coalesce_isRequest (k : NoticeKind) (arg : Nat) (c : Completion) : (coalesce k arg c).isRequest = c.isRequest := by
  cases c with
  | station k' n a => by_cases h : k' = k <;> simp [coalesce, Completion.isRequest, h]
  | _ => rfl

theorem coalesce_isSignal (k : NoticeKind) (arg : Nat) (n : SignalNo) (c : Completion) :
    (coalesce k arg c).isSignal n = c.isSignal n := by
  cases c with
  | station k' m a => by_cases h : k' = k <;> simp [coalesce, Completion.isSignal, h]
  | _ => rfl

theorem coalesce_isNotice (k k' : NoticeKind) (arg : Nat) (c : Completion) : (coalesce k arg c).isNotice k' = c.isNotice k' := by
  cases c with
  | station k'' m a => by_cases h : k'' = k <;> simp [coalesce, Completion.isNotice, h]
  | _ => rfl

/-- The request records that the budget counts (R172). -/
theorem countP_isRequest_push (q : List Completion) (c : Completion) :
    (push q c).countP Completion.isRequest = q.countP Completion.isRequest + bitOf c.isRequest := by
  cases c with
  | station k n a =>
    by_cases h : q.any (Completion.isNotice k) = true
    · rw [push_notice_again q k n a h, List.countP_map]
      simp only [Function.comp_def, coalesce_isRequest]
      rfl
    · rw [push_notice_new q k n a (by simpa using h)]
      simp [Completion.isRequest, bitOf]
  | request => simp [Completion.isRequest, bitOf]
  | signal => simp [Completion.isRequest, bitOf]

/-- The signal notices of one signal (R120). -/
theorem countP_isSignal_push (m : SignalNo) (q : List Completion) (c : Completion) :
    (push q c).countP (Completion.isSignal m) = q.countP (Completion.isSignal m) + bitOf (c.isSignal m) := by
  cases c with
  | station k n a =>
    by_cases h : q.any (Completion.isNotice k) = true
    · rw [push_notice_again q k n a h, List.countP_map]
      simp only [Function.comp_def, coalesce_isSignal]
      rfl
    · rw [push_notice_new q k n a (by simpa using h)]
      simp [Completion.isSignal, bitOf]
  | request => simp [Completion.isSignal, bitOf]
  | signal n f => by_cases h : n = m <;> simp [Completion.isSignal, bitOf, h]

/-- The records after the push of a signal notice or a request, as a membership. -/
theorem mem_signal_push (m : SignalNo) (f : Station) (q : List Completion) (c : Completion) :
    Completion.signal m f ∈ push q c ↔ Completion.signal m f ∈ q ∨ c = .signal m f := by
  cases c with
  | station k n a =>
    by_cases h : q.any (Completion.isNotice k) = true
    · rw [push_notice_again q k n a h, List.mem_map]
      constructor
      · rintro ⟨x, hx, he⟩
        cases x with
        | station k' n' a' => by_cases hk : k' = k <;> simp [coalesce, hk] at he
        | request => simp [coalesce] at he
        | signal => exact .inl (he ▸ hx)
      · rintro (hx | hx)
        · exact ⟨_, hx, rfl⟩
        · simp at hx
    · rw [push_notice_new q k n a (by simpa using h)]
      simp
  | request => simp
  | signal n g => simp [eq_comm]

/-! ## The records of one event -/

theorem perm_live (streams : List (List Group)) :
    ∃ gs : List Group, ((live streams).flatten ++ gs).Perm streams.flatten ∧ ∀ g ∈ gs, g = [] := by
  have key : (live streams).flatten = streams.flatten.filter fun g => !g.isEmpty := by
    induction streams with
    | nil => rfl
    | cons a l ih =>
      by_cases h : (a.filter fun g => !g.isEmpty) = []
      · simpa [live, h] using ih
      · have : live (a :: l) = (a.filter fun g => !g.isEmpty) :: live l := by
          simp only [live, List.map_cons]
          rw [List.filter_cons_of_pos]
          simpa using h
        simp [this, ih]
  refine ⟨streams.flatten.filter fun g => !(!g.isEmpty), ?_, ?_⟩
  · rw [key]
    exact List.filter_append_perm _ _
  · intro g hg
    simpa using (List.mem_filter.mp hg).2

/-- Every group stands whole in the order picked, and no group is left out (R53, R176). -/
theorem interleave_perm (fuel c : Nat) (streams : List (List Group)) :
    ∃ order : List Group, order.Perm streams.flatten ∧ interleave fuel c streams = order.flatten := by
  induction fuel generalizing c streams with
  | zero => exact ⟨_, .refl _, rfl⟩
  | succ fuel ih =>
    match streams with
    | [] => exact ⟨[], .refl _, rfl⟩
    | [gs] => exact ⟨gs, by simp, rfl⟩
    | a :: b :: rest =>
      simp only [interleave]
      set streams := a :: b :: rest with hs
      set i := c % streams.length with hi
      split
      · rename_i g gs hg
        obtain ⟨order, hp, he⟩ := ih (c / streams.length) (live (streams.set i gs))
        obtain ⟨empties, hq, hall⟩ := perm_live (streams.set i gs)
        refine ⟨g :: order ++ empties, ?_, ?_⟩
        · obtain ⟨hlt, hget⟩ := List.getElem?_eq_some_iff.mp hg
          have h₁ : (order ++ empties).Perm (streams.set i gs).flatten := (hp.append_right _).trans hq
          have h₂ : streams.flatten.Perm (g :: (streams.set i gs).flatten) := by
            have hsplit : streams = streams.take i ++ (g :: gs) :: streams.drop (i + 1) := by
              rw [← hget, List.cons_getElem_drop_succ, List.take_append_drop]
            have hset : streams.set i gs = streams.take i ++ gs :: streams.drop (i + 1) := by
              rw [List.set_eq_take_append_cons_drop, if_pos hlt]
            rw [hset]
            conv_lhs => rw [hsplit]
            simp only [List.flatten_append, List.flatten_cons, List.cons_append]
            exact List.perm_middle
          exact (h₁.cons g).trans h₂.symm
        · have : empties.flatten = [] := by
            simpa [List.flatten_eq_nil_iff] using hall
          simp [he, this]
      · exact ⟨_, .refl _, rfl⟩

/-- The records of one event stand in some order of the groups handed on, each group whole. -/
theorem arrange_perm (c : Nat) (streams : List (List Group)) :
    ∃ order : List Group, order.Perm streams.flatten ∧ arrange c streams = order.flatten := by
  obtain ⟨order, hp, he⟩ := interleave_perm (live streams).flatten.length c (live streams)
  obtain ⟨empties, hq, hall⟩ := perm_live streams
  refine ⟨order ++ empties, (hp.append_right _).trans hq, ?_⟩
  have : empties.flatten = [] := by simpa [List.flatten_eq_nil_iff] using hall
  rw [arrange, he, List.flatten_append, this, List.append_nil]

theorem live_flatten_flatten (streams : List (List Group)) : (live streams).flatten.flatten = streams.flatten.flatten := by
  induction streams with
  | nil => rfl
  | cons a l ih =>
    have hf : (a.filter fun g => !g.isEmpty).flatten = a.flatten := by
      induction a with
      | nil => rfl
      | cons g gs ih' => cases g <;> simp [ih']
    by_cases h : (a.filter fun g => !g.isEmpty) = []
    · have ha : a.flatten = [] := by rw [← hf, h]; rfl
      have : live (a :: l) = live l := by simp [live, h]
      simp [this, ih, ha]
    · have : live (a :: l) = (a.filter fun g => !g.isEmpty) :: live l := by
        simp only [live, List.map_cons]
        rw [List.filter_cons_of_pos]
        simpa using h
      simp [this, ih, hf]

/-- Where one block at most hands on records, they stand in its order. -/
theorem arrange_of_one_block (c : Nat) (streams : List (List Group)) (h : (live streams).length ≤ 1) :
    arrange c streams = streams.flatten.flatten := by
  rw [← live_flatten_flatten, arrange]
  match hl : live streams with
  | [] => rfl
  | [gs] => cases gs <;> simp [interleave]
  | _ :: _ :: _ => simp [hl] at h

/-- One block at most hands on records: they join in its order, and no choice is made. -/
theorem State.handOn_of_one_block (s : State) (streams : List (List Group)) (h : (live streams).length ≤ 1) :
    s.handOn streams = { s with completions := streams.flatten.flatten.foldl push s.completions } := by
  simp [State.handOn, arrange_of_one_block _ _ h, h]

/-- The hand-on of an event: the groups join whole, in some order, and nothing but the completion queue and the counter of choices changes. -/
theorem State.handOn_spec (s : State) (streams : List (List Group)) :
    s.handOn streams =
        { s with completions := (s.handOn streams).completions, choices := (s.handOn streams).choices } ∧
      ∃ order : List Group, order.Perm streams.flatten ∧
        (s.handOn streams).completions = order.flatten.foldl push s.completions := by
  refine ⟨rfl, ?_⟩
  obtain ⟨order, hp, he⟩ := arrange_perm (Config.choice s.choices) streams
  exact ⟨order, hp, by simp [he]⟩

/-! ## Effects -/

@[simp] theorem quiet_fst (s : State) : (quiet s).1 = s := rfl
@[simp] theorem quiet_snd (s : State) : (quiet s).2 = Handed.none := rfl
@[simp] theorem Effect.andThen_fst (e : Effect) (f : State → Effect) : (e.andThen f).1 = (f e.1).1 := rfl
@[simp] theorem Effect.andThen_snd (e : Effect) (f : State → Effect) : (e.andThen f).2 = e.2.add (f e.1).2 := rfl
@[simp] theorem Handed.none_add (h : Handed) : Handed.none.add h = h := by cases h; simp [Handed.add, Handed.none]
@[simp] theorem Handed.add_none (h : Handed) : h.add .none = h := by cases h; simp [Handed.add, Handed.none]
@[simp] theorem Effect.quiet_andThen (s : State) (f : State → Effect) : (quiet s).andThen f = f s := by
  simp [Effect.andThen, quiet]
@[simp] theorem Effect.andThen_quiet (e : Effect) : e.andThen quiet = e := by
  simp [Effect.andThen, quiet]

theorem Handed.streams_none : Handed.none.streams = [[], [], [], [], [], [], [], []] := rfl

@[simp] theorem State.handOn_none (s : State) : s.handOn Handed.none.streams = s := by
  rw [State.handOn_of_one_block] <;> simp [live, Handed.streams_none]

/-- An event at which nothing is handed on leaves the state of its effect. -/
@[simp] theorem Effect.done_quiet (s : State) : (quiet s).done = s := by simp [Effect.done]

/-- An event at which the groups of one block are handed on. -/
theorem Effect.done_of_one_block (e : Effect) (h : (live e.2.streams).length ≤ 1) :
    e.done = { e.1 with completions := e.2.streams.flatten.flatten.foldl push e.1.completions } :=
  State.handOn_of_one_block _ _ h

/-- The frame of the hand-on: nothing but the completion queue and the counter of choices. -/
theorem Effect.done_frame (e : Effect) :
    e.done = { e.1 with completions := e.done.completions, choices := e.done.choices } := rfl

end Sys2Proof.Machine
end

