-- ==== Sys2Proof/Laws/Memory.lean ====
section
/-! SUPPORT. The node memory path, the apply engine and the return list: what each shared operation can do (R99 to R114). -/

namespace Sys2Proof.Machine

/-! ## The path -/

/-- The engine's request is started on a FREE path and waits otherwise (R112). -/
theorem State.askApply_cases (s : State) (a : Access) :
    (s.path.state = .free ∧
        s.askApply a = { s with path := { s.path with state := .busy .apply a, lastServed := .apply }, engine := .inAccess }) ∨
      (s.path.state ≠ .free ∧
        s.askApply a = { s with path := { s.path with applyWaiting := some a }, engine := .pathWait }) := by
  by_cases h : s.path.state = .free
  · exact .inl ⟨h, by simp [State.askApply, h]⟩
  · exact .inr ⟨h, by simp [State.askApply, h]⟩

/-- A landing is started on a FREE path and waits behind the others otherwise (R112). -/
theorem State.askLanding_cases (s : State) (t : SlotNo) (a : Access) :
    (s.path.state = .free ∧
        s.askLanding t a = { s with path := { s.path with state := .busy (.landing t) a, lastServed := .landing } }) ∨
      (s.path.state ≠ .free ∧
        s.askLanding t a = { s with path := { s.path with landingWaiting := s.path.landingWaiting ++ [(t, a)] } }) := by
  by_cases h : s.path.state = .free
  · exact .inl ⟨h, by simp [State.askLanding, h]⟩
  · exact .inr ⟨h, by simp [State.askLanding, h]⟩

/-- The path that falls FREE starts one waiting request, or stays FREE with none (R112, R113). -/
theorem State.pathFallsFree_cases (s : State) :
    (s.path.applyWaiting = none ∧ s.path.landingWaiting = [] ∧
        s.pathFallsFree = { s with path := { s.path with state := .free } }) ∨
      (∃ a, s.path.applyWaiting = some a ∧ (s.path.landingWaiting = [] ∨ s.path.lastServed = .landing) ∧
        s.pathFallsFree = s.startApply a) ∨
      (∃ t b rest, s.path.landingWaiting = (t, b) :: rest ∧ (s.path.applyWaiting = none ∨ s.path.lastServed = .apply) ∧
        s.pathFallsFree = s.startLanding t b rest) := by
  unfold State.pathFallsFree
  match ha : s.path.applyWaiting, hl : s.path.landingWaiting with
  | none, [] => exact .inl ⟨rfl, rfl, rfl⟩
  | some a, [] => exact .inr (.inl ⟨a, rfl, .inl rfl, rfl⟩)
  | none, (t, b) :: rest => exact .inr (.inr ⟨t, b, rest, rfl, .inl rfl, rfl⟩)
  | some a, (t, b) :: rest =>
    cases hs : s.path.lastServed with
    | landing => exact .inr (.inl ⟨a, rfl, .inr rfl, by simp⟩)
    | apply => exact .inr (.inr ⟨t, b, rest, rfl, .inr rfl, by simp⟩)

/-- The frame of the path: itself and the engine. -/
theorem State.pathFallsFree_frame (s : State) :
    s.pathFallsFree = { s with path := s.pathFallsFree.path, engine := s.pathFallsFree.engine } := by
  rcases s.pathFallsFree_cases with ⟨-, -, h⟩ | ⟨a, -, -, h⟩ | ⟨t, b, rest, -, -, h⟩ <;> rw [h] <;> rfl

/-- A path with nothing waiting falls FREE. -/
theorem State.pathFallsFree_quiet (s : State) (ha : s.path.applyWaiting = none) (hl : s.path.landingWaiting = []) :
    s.pathFallsFree = { s with path := { s.path with state := .free } } := by
  simp [State.pathFallsFree, ha, hl]

/-- At a reset the access in flight is abandoned and nothing waits (R114). -/
theorem MemPath.abandon_spec (p : MemPath) :
    p.abandon.applyWaiting = none ∧ p.abandon.landingWaiting = [] ∧ p.abandon.lastServed = p.lastServed ∧
      (∀ u a, p.state = .busy u a → p.abandon.state = .abandoned a) ∧
      ((∀ u a, p.state ≠ .busy u a) → p.abandon.state = p.state) := by
  refine ⟨rfl, rfl, rfl, ?_, ?_⟩
  · intro u a h; simp [MemPath.abandon, h]
  · intro h
    cases hs : p.state with
    | busy u a => exact absurd hs (h u a)
    | _ => simp [MemPath.abandon, hs]

/-! ## The apply engine -/

/-- What an engine that looks at its head can do: ask for the head's access, wait for room, or go IDLE (R99 to R101). -/
theorem State.applyHead_cases (s : State) :
    s.applyHead = { s with engine := .idle } ∨
      (∃ e rest addr data, s.inbound = e :: rest ∧ e.provisional = false ∧ e.op = .post addr data ∧
        s.applyHead = s.askApply (.write addr data)) ∨
      (∃ e rest addr length tag, s.inbound = e :: rest ∧ e.provisional = false ∧ e.op = .fetch addr length tag ∧
        ((s.returns.length < Config.returnCapacity ∧ s.applyHead = s.askApply (.read addr length)) ∨
          (Config.returnCapacity ≤ s.returns.length ∧ s.applyHead = { s with engine := .roomWait }))) := by
  unfold State.applyHead
  split
  · exact .inl rfl
  · rename_i e rest hi
    cases hp : e.provisional with
    | true => exact .inl (by simp)
    | false =>
      cases ho : e.op with
      | post addr data => exact .inr (.inl ⟨e, rest, addr, data, hi, hp, ho, by simp⟩)
      | signal n => exact .inl (by simp)
      | fetch addr length tag =>
        refine .inr (.inr ⟨e, rest, addr, length, tag, hi, hp, ho, ?_⟩)
        by_cases hr : s.returns.length < Config.returnCapacity
        · exact .inl ⟨hr, by simp [hr]⟩
        · exact .inr ⟨Nat.le_of_not_lt hr, by simp [hr]⟩

/-- The frame of a look at the head: the engine and the path. -/
theorem State.applyHead_frame (s : State) :
    s.applyHead = { s with engine := s.applyHead.engine, path := s.applyHead.path } := by
  have ask : ∀ a, s.askApply a = { s with engine := (s.askApply a).engine, path := (s.askApply a).path } := by
    intro a
    rcases s.askApply_cases a with ⟨-, h⟩ | ⟨-, h⟩ <;> rw [h]
  rcases s.applyHead_cases with h | ⟨e, rest, addr, data, -, -, -, h⟩ | ⟨e, rest, addr, length, tag, -, -, -, ⟨-, h⟩ | ⟨-, h⟩⟩
  · rw [h]
  · rw [h]; exact ask _
  · rw [h]; exact ask _
  · rw [h]

/-- The raised SIGNALs leave the queue from its head, and nothing but the queue and the signal table changes (R99, R102). -/
theorem State.raiseHeads_spec (q : List InboundEntry) (s : State) :
    (s.raiseHeads q).1 = { s with inbound := (s.raiseHeads q).1.inbound, signals := (s.raiseHeads q).1.signals } ∧
      (s.raiseHeads q).2 = { Handed.none with signal := (s.raiseHeads q).2.signal } ∧
      (s.raiseHeads q).1.inbound =
        q.dropWhile fun e => !e.provisional && (match e.op with | .signal _ => true | _ => false) := by
  induction q generalizing s with
  | nil => exact ⟨rfl, rfl, rfl⟩
  | cons e rest ih =>
    unfold State.raiseHeads
    cases hp : e.provisional with
    | true => exact ⟨rfl, rfl, by simp [hp]⟩
    | false =>
      cases ho : e.op with
      | post addr data => exact ⟨rfl, rfl, by simp [hp, ho]⟩
      | fetch addr length tag => exact ⟨rfl, rfl, by simp [hp, ho]⟩
      | signal n =>
        obtain ⟨h₁, h₂, h₃⟩ := ih (s.raiseSignal n e.source).1
        refine ⟨?_, ?_, ?_⟩
        · simp only [Bool.false_eq_true, if_false, Effect.andThen_fst]
          rw [h₁]
          rfl
        · simp only [Bool.false_eq_true, if_false, Effect.andThen_snd]
          rw [h₂]
          simp [State.raiseSignal, Handed.add, Handed.none]
        · simp only [Bool.false_eq_true, if_false, Effect.andThen_fst]
          rw [h₃]
          simp [hp, ho]

/-- A committed SIGNAL at the head is raised before what stands behind it (R99, R102). -/
@[simp] theorem State.raiseHeads_signal (s : State) (n : SignalNo) (source : Station) (rest : List InboundEntry) :
    s.raiseHeads ({ op := .signal n, source := source, provisional := false } :: rest) =
      (s.raiseSignal n source).andThen fun s' => s'.raiseHeads rest := by
  simp [State.raiseHeads]

/-- The frame of an engine that takes its next head: the inbound queue, the engine, the path and the signal table (R99 to R102). -/
theorem State.takeHead_frame (s : State) :
    s.takeHead.1 =
        { s with
          inbound := s.takeHead.1.inbound, engine := s.takeHead.1.engine, path := s.takeHead.1.path
          signals := s.takeHead.1.signals } ∧
      s.takeHead.2 = { Handed.none with signal := s.takeHead.2.signal } := by
  obtain ⟨h₁, h₂, -⟩ := s.raiseHeads_spec s.inbound
  unfold State.takeHead
  constructor
  · simp only [Effect.andThen_fst, quiet_fst]
    rw [State.applyHead_frame, h₁]
  · simp only [Effect.andThen_snd, quiet_snd, Handed.add_none]
    exact h₂

@[simp] theorem State.takeHead_nil (s : State) (h : s.inbound = []) : s.takeHead = quiet { s with engine := .idle } := by
  cases s
  simp_all [State.takeHead, State.raiseHeads, State.applyHead]

/-- An engine that is not IDLE, and one of a CONTAINED station, is not woken (R99). -/
theorem State.wakeEngine_quiet (s : State) (h : s.engine ≠ .idle ∨ s.station = .contained) : s.wakeEngine = quiet s := by
  have : ¬(s.engine = .idle ∧ s.station ≠ .contained) := fun ⟨h₁, h₂⟩ => h.elim (· h₁) (h₂ ·)
  simp [State.wakeEngine, this]

/-- An engine that is not in ROOM_WAIT asks for nothing when the return list gains a place (R103). -/
theorem State.leaveRoomWait_of_ne (s : State) (h : s.engine ≠ .roomWait) : s.leaveRoomWait = s := by
  simp [State.leaveRoomWait, h]

/-- The frame of a return list that gains a place: the engine and the path (R101, R103). -/
theorem State.leaveRoomWait_frame (s : State) :
    s.leaveRoomWait = { s with engine := s.leaveRoomWait.engine, path := s.leaveRoomWait.path } := by
  unfold State.leaveRoomWait
  split
  · exact s.applyHead_frame
  · rfl

/-- With no provisional entry the inbound queue stays as it is (R98). -/
theorem State.settleProvisional_none (s : State) (taken : Bool) (h : ∀ e ∈ s.inbound, e.provisional = false) :
    s.settleProvisional taken = s := by
  have hm : (s.inbound.map fun e => { e with provisional := false }) = s.inbound := by
    conv_rhs => rw [← List.map_id s.inbound]
    refine List.map_congr_left fun e he => ?_
    have := h e he
    cases e
    simp_all
  have hf : (s.inbound.filter fun e => !e.provisional) = s.inbound := List.filter_eq_self.mpr fun e he => by simp [h e he]
  cases taken <;> simp [State.settleProvisional, hm, hf]

/-- The engine at containment entry: an access in flight is left; otherwise the engine is STOPPED and asks for nothing (R104). -/
theorem State.stopEngine_spec (s : State) :
    (s.engine = .inAccess ∧ s.stopEngine = s) ∨
      (s.engine ≠ .inAccess ∧
        s.stopEngine = { s with engine := .stopped, path := { s.path with applyWaiting := none } }) := by
  by_cases h : s.engine = .inAccess
  · exact .inl ⟨h, by simp [State.stopEngine, h]⟩
  · exact .inr ⟨h, by simp [State.stopEngine, h]⟩

/-! ## The return list -/

/-- A RETURN joins the list unless its requester is closed (R106). -/
theorem State.joinReturn_cases (s : State) (requester : Station) (tag : SlotNo) (result : FetchResult) :
    (((s.reachOf requester).state = .unreachable ∨ (s.reachOf requester).state = .contained) ∧
        s.joinReturn requester tag result = s) ∨
      ((s.reachOf requester).state ≠ .unreachable ∧ (s.reachOf requester).state ≠ .contained ∧
        s.joinReturn requester tag result =
          { s with returns := s.returns ++ [{ requester := requester, tag := tag, result := result, inFlight := false }] }) := by
  by_cases h : (s.reachOf requester).state = .unreachable ∨ (s.reachOf requester).state = .contained
  · exact .inl ⟨h, by simp [State.joinReturn, h]⟩
  · have h' := not_or.mp h
    exact .inr ⟨h'.1, h'.2, by simp [State.joinReturn, h]⟩

/-- The frame of a removal from the return list: the list, the engine and the path (R103, R108 to R110). -/
theorem State.removeReturn_frame (s : State) :
    s.removeReturn =
      { s with
        returns := s.returns.filter fun r => !r.inFlight, engine := s.removeReturn.engine, path := s.removeReturn.path } := by
  unfold State.removeReturn
  rw [State.leaveRoomWait_frame]

/-- The frame of the drop of a closed station's RETURNs (R71, R103). -/
theorem State.dropReturns_frame (s : State) (d : Station) :
    s.dropReturns d =
      { s with
        returns := s.returns.filter fun r => r.inFlight || r.requester != d, engine := (s.dropReturns d).engine
        path := (s.dropReturns d).path } := by
  unfold State.dropReturns
  rw [State.leaveRoomWait_frame]

end Sys2Proof.Machine
end

