-- ==== Sys2Proof/Laws/Tables.lean ====
section
/-! SUPPORT. The send queue, the fetch table, the reach table, the signal table and the fault log: what each shared operation can do. -/

namespace Sys2Proof.Machine

/-! ## Counts -/

theorem bump_le (n : Nat) (h : n ≤ Config.countMax) : bump n ≤ Config.countMax := by
  by_cases h' : n < Config.countMax
  · simp only [bump, h', if_true]; omega
  · simpa only [bump, h', if_false] using h

theorem le_bump (n : Nat) : n ≤ bump n := by
  unfold bump
  split <;> omega

/-! ## The send queue -/

@[simp] theorem SendOp.withTag_none_kind (e : SendEntry) (tag : Option SlotNo) : (e.freeze tag).kind = e.kind := by
  cases h : e.op <;> simp [SendEntry.freeze, SendEntry.kind, SendOp.withTag, h]

@[simp] theorem SendEntry.release_kind (e : SendEntry) : e.release.kind = e.kind := by
  cases h : e.op <;> simp [SendEntry.release, SendEntry.kind, SendOp.withTag, h]

@[simp] theorem SendEntry.release_dest (e : SendEntry) : e.release.dest = e.dest := rfl
@[simp] theorem SendEntry.release_inFlight (e : SendEntry) : e.release.inFlight = false := rfl
@[simp] theorem SendEntry.freeze_dest (e : SendEntry) (tag : Option SlotNo) : (e.freeze tag).dest = e.dest := rfl
@[simp] theorem SendEntry.freeze_inFlight (e : SendEntry) (tag : Option SlotNo) : (e.freeze tag).inFlight = true := rfl

/-- A release leaves a queue without an in-flight entry as it is (R43). -/
theorem State.releaseInFlight_none (s : State) (h : ∀ e ∈ s.sendQueue, e.inFlight = false) : s.releaseInFlight = s := by
  have : (s.sendQueue.map fun e => if e.inFlight then e.release else e) = s.sendQueue := by
    conv_rhs => rw [← List.map_id s.sendQueue]
    exact List.map_congr_left fun e he => by simp [h e he]
  simp [State.releaseInFlight, this]

/-- The place of an in-flight entry, and what its release, its removal and the raise of its full count make of the queue (R38, R43, R45). -/
theorem inFlight_split (older younger : List SendEntry) (e : SendEntry) (ho : ∀ x ∈ older, x.inFlight = false)
    (he : e.inFlight = true) (hy : ∀ x ∈ younger, x.inFlight = false) (f : SendEntry → SendEntry) :
    (older ++ e :: younger).find? (·.inFlight) = some e ∧
      (older ++ e :: younger).filter (fun x => !x.inFlight) = older ++ younger ∧
      (older ++ e :: younger).filter (·.inFlight) = [e] ∧
      (older ++ e :: younger).map (fun x => if x.inFlight then f x else x) = older ++ f e :: younger := by
  have hmo : older.map (fun x => if x.inFlight then f x else x) = older := by
    conv_rhs => rw [← List.map_id older]
    exact List.map_congr_left fun x hx => by simp [ho x hx]
  have hmy : younger.map (fun x => if x.inFlight then f x else x) = younger := by
    conv_rhs => rw [← List.map_id younger]
    exact List.map_congr_left fun x hx => by simp [hy x hx]
  have hfo : older.filter (fun x => !x.inFlight) = older := List.filter_eq_self.mpr fun x hx => by simp [ho x hx]
  have hfy : younger.filter (fun x => !x.inFlight) = younger := List.filter_eq_self.mpr fun x hx => by simp [hy x hx]
  have hno : older.filter (·.inFlight) = [] := List.filter_eq_nil_iff.mpr fun x hx => by simp [ho x hx]
  have hny : younger.filter (·.inFlight) = [] := List.filter_eq_nil_iff.mpr fun x hx => by simp [hy x hx]
  have hdo : older.find? (·.inFlight) = none := List.find?_eq_none.mpr fun x hx => by simp [ho x hx]
  refine ⟨?_, ?_, ?_, ?_⟩
  · simp [List.find?_append, hdo, he]
  · simp [List.filter_append, hfo, hfy, he]
  · simp [List.filter_append, hno, hny, he]
  · simp [hmo, hmy, he]

/-- No record of a lane failure is a station notice (R51). -/
theorem laneRecords_not_notice (status : Status) (es : List SendEntry) :
    ∀ c ∈ laneRecords status es, ∀ k, c.isNotice k = false := by
  intro c hc k
  cases es with
  | nil => simp [laneRecords] at hc
  | cons e rest =>
    rcases List.mem_cons.mp hc with rfl | hc
    · rfl
    · obtain ⟨x, -, rfl⟩ := List.mem_map.mp hc
      rfl

/-- A lane that closes: its entries leave, with one record each (R51, R52). -/
theorem State.closeLane_spec (s : State) (d : Station) (status : Status) :
    (s.closeLane d status).1 = { s with sendQueue := s.sendQueue.filter fun e => e.dest != d } ∧
      (s.closeLane d status).2 = { Handed.none with sendQueue := [laneRecords status (s.lane d)] } ∧
      (laneRecords status (s.lane d)).length + (s.closeLane d status).1.sendQueue.length = s.sendQueue.length := by
  refine ⟨rfl, rfl, ?_⟩
  have hl : (laneRecords status (s.lane d)).length = (s.lane d).length := by
    cases h : s.lane d <;> simp [laneRecords]
  have : (s.lane d).length = s.sendQueue.countP fun e => e.dest == d := by simp [State.lane, List.countP_eq_length_filter]
  have hr : (s.closeLane d status).1.sendQueue.length = s.sendQueue.countP fun e => !(e.dest == d) := by
    simp [State.closeLane, List.countP_eq_length_filter, bne]
  rw [hl, this, hr, List.length_eq_countP_add_countP (fun e : SendEntry => e.dest == d) (l := s.sendQueue)]
  simp [beq_eq_decide]

/-! ## The fetch table -/

/-- The AWAITING slots that fail: those that meet `p`, each FREE afterwards; the other slots stay (R87 to R89). -/
theorem State.failAwaiting_slot (s : State) (p : FetchSlot → Bool) (status : Status) (i : SlotNo) :
    (s.failAwaiting p status).1.slot i = if (s.slot i).state == .awaiting && p (s.slot i) then freeSlot else s.slot i := by
  simp [State.failAwaiting, State.slot]

/-- The frame of failing slots: the fetch table alone, with one group of the fetch table's. -/
theorem State.failAwaiting_frame (s : State) (p : FetchSlot → Bool) (status : Status) :
    (s.failAwaiting p status).1 = { s with slots := (s.failAwaiting p status).1.slots } ∧
      (s.failAwaiting p status).2 = { Handed.none with fetch := (s.failAwaiting p status).2.fetch } := ⟨rfl, rfl⟩

/-- A fetch that ends: its slot is FREE, with its one record (R88). -/
theorem State.endFetch_spec (s : State) (t : SlotNo) (status : Status) :
    (s.endFetch t status).1 = s.setSlot t freeSlot ∧
      (s.endFetch t status).2 =
        { Handed.none with fetch := [[.request (s.slot t).cookie .fetch (s.slot t).dest status]] } := ⟨rfl, rfl⟩

/-- A slot that is decided lands, ends, or falls back to AWAITING; the fetch table and the path alone change (R81, R82, R89). -/
theorem State.decideSlot_frame (s : State) (t : SlotNo) (taken : Bool) :
    (s.decideSlot t taken).1 =
        { s with slots := (s.decideSlot t taken).1.slots, path := (s.decideSlot t taken).1.path } ∧
      (s.decideSlot t taken).2 = { Handed.none with fetch := (s.decideSlot t taken).2.fetch } := by
  have hend : ∀ status, (s.endFetch t status).1 =
        { s with slots := (s.endFetch t status).1.slots, path := (s.endFetch t status).1.path } ∧
      (s.endFetch t status).2 = { Handed.none with fetch := (s.endFetch t status).2.fetch } := fun _ => ⟨rfl, rfl⟩
  have hland : ∀ data, s.land t data = { s with slots := (s.land t data).slots, path := (s.land t data).path } := by
    intro data
    unfold State.land
    rcases State.askLanding_cases (s.setSlot t { s.slot t with state := .landing, timer := .stopped, deferred := false }) t
      (.write (s.slot t).landing data) with ⟨-, h⟩ | ⟨-, h⟩ <;> rw [h] <;> rfl
  unfold State.decideSlot
  split
  · exact hend _
  · split
    · split
      · exact ⟨hland _, rfl⟩
      · exact hend _
    · split
      · exact hend _
      · exact ⟨rfl, rfl⟩

/-! ## The reach table -/

/-- What a heard peer's entry becomes, state by state (R60, R62, R66). -/
theorem ReachEntry.heard_state (e : ReachEntry) (flag : Bool) :
    (e.heard flag).state =
      (match e.state with
        | .unknown | .unreachable => .reachable
        | .waiting => if flag then .reachable else .waiting
        | other => other) := by
  cases h : e.state <;> cases flag <;> simp [ReachEntry.heard, ReachEntry.alive, ReachEntry.room, h]

@[simp] theorem ReachEntry.alive_silence (e : ReachEntry) : e.alive.silence = 0 := rfl
@[simp] theorem ReachEntry.alive_timer (e : ReachEntry) : e.alive.timer = e.timer := rfl

/-- A destination that is closed: its lane, its AWAITING slots and its RETURNs not in flight go, each with what it hands on (R71). -/
theorem State.closeDestination_spec (s : State) (d : Station) (status : Status) :
    (s.closeDestination d status).1 =
        { s with
          sendQueue := s.sendQueue.filter fun e => e.dest != d
          slots := (s.failSlotsFor d status).1.slots
          returns := s.returns.filter fun r => r.inFlight || r.requester != d
          engine := (s.closeDestination d status).1.engine
          path := (s.closeDestination d status).1.path } ∧
      (s.closeDestination d status).2 =
        { Handed.none with
          sendQueue := [laneRecords status (s.lane d)]
          fetch := (s.failSlotsFor d status).2.fetch } := by
  constructor
  · unfold State.closeDestination
    simp only [Effect.andThen_fst, quiet_fst]
    rw [State.dropReturns_frame]
    rfl
  · rfl

/-- A no-reply: nothing at the SELF entry, the third closes the station, and any other raises the silence count (R64). -/
theorem State.noReply_cases (s : State) (d : Station) :
    ((s.reachOf d).state = .self ∧ s.noReply d = quiet s) ∨
      (2 ≤ (s.reachOf d).silence ∧
        ((s.reachOf d).state = .unknown ∨ (s.reachOf d).state = .reachable ∨ (s.reachOf d).state = .waiting) ∧
        s.noReply d =
          (s.setReach d { state := .unreachable, silence := 3, timer := .stopped }).closeDestination d .unreachable) ∨
      ((s.reachOf d).state ≠ .self ∧
        ((s.reachOf d).silence < 2 ∨ (s.reachOf d).state = .unreachable ∨ (s.reachOf d).state = .contained) ∧
        s.noReply d = quiet (s.setReach d { s.reachOf d with silence := min ((s.reachOf d).silence + 1) 3 })) := by
  unfold State.noReply
  by_cases h : (s.reachOf d).state = .self
  · exact .inl ⟨h, by simp [h]⟩
  · by_cases hc : Config.silenceLimit ≤ (s.reachOf d).silence + 1 ∧
        ((s.reachOf d).state = .unknown ∨ (s.reachOf d).state = .reachable ∨ (s.reachOf d).state = .waiting)
    · refine .inr (.inl ⟨?_, hc.2, ?_⟩)
      · have := hc.1
        simp only [Config.silenceLimit] at this
        omega
      · simp only [h, hc, if_false]
        rfl
    · refine .inr (.inr ⟨h, ?_, by simp only [h, hc, if_false]; rfl⟩)
      simp only [Config.silenceLimit] at hc
      cases hs : (s.reachOf d).state <;> simp_all

/-- A peer that halts: nothing where its entry is CONTAINED or SELF; otherwise the entry is CONTAINED, the station is closed and PEER_HALTED
is handed on (R67, R68). -/
theorem State.peerHalts_cases (s : State) (d : Station) :
    (((s.reachOf d).state = .contained ∨ (s.reachOf d).state = .self) ∧ s.peerHalts d = quiet s) ∨
      ((s.reachOf d).state ≠ .contained ∧ (s.reachOf d).state ≠ .self ∧
        (s.peerHalts d).1 =
          ((s.setReach d { s.reachOf d with state := .contained, timer := .stopped }).closeDestination d .destContained).1 ∧
        (s.peerHalts d).2 =
          ((s.setReach d { s.reachOf d with state := .contained, timer := .stopped }).closeDestination d
            .destContained).2.add (reachNotice .peerHalted d)) := by
  by_cases h : (s.reachOf d).state = .contained ∨ (s.reachOf d).state = .self
  · exact .inl ⟨h, by simp [State.peerHalts, h]⟩
  · have h' := not_or.mp h
    exact .inr ⟨h'.1, h'.2, by simp [State.peerHalts, h], by simp [State.peerHalts, h]⟩

/-- The frame of what the reach table does with a good parcel: itself, and what the closing of a station touches. -/
theorem State.reachConsumes_frame (s : State) (d : Station) (room : Bool) (body : Option Body) :
    (s.reachConsumes d room body).1 =
      { s with
        sendQueue := (s.reachConsumes d room body).1.sendQueue
        reach := (s.reachConsumes d room body).1.reach
        slots := (s.reachConsumes d room body).1.slots
        returns := (s.reachConsumes d room body).1.returns
        engine := (s.reachConsumes d room body).1.engine
        path := (s.reachConsumes d room body).1.path } := by
  have halts : ∀ s' : State, (s'.peerHalts d).1 =
      { s' with
        sendQueue := (s'.peerHalts d).1.sendQueue, reach := (s'.peerHalts d).1.reach, slots := (s'.peerHalts d).1.slots
        returns := (s'.peerHalts d).1.returns, engine := (s'.peerHalts d).1.engine, path := (s'.peerHalts d).1.path } := by
    intro s'
    rcases s'.peerHalts_cases d with ⟨-, h⟩ | ⟨-, -, h, -⟩
    · rw [h]; rfl
    · rw [h, (State.closeDestination_spec _ d .destContained).1]; rfl
  match body with
  | some (.hello cls policy) =>
    by_cases h₁ : (s.reachOf d).state = .self
    · simp [State.reachConsumes, State.peerRestarts, h₁]
    · by_cases h₂ : (s.reachOf d).state = .unknown
      · simp [State.reachConsumes, State.peerRestarts, h₂, State.setReach]
      · simp [State.reachConsumes, State.peerRestarts, h₁, h₂, State.failSlotsFor, State.failAwaiting, State.setReach]
  | some (.contain .halted cause named addr length) =>
    simp only [State.reachConsumes]
    rw [halts]
    rfl
  | some (.contain .reported cause named addr length) =>
    by_cases h : ((s.hear d room).reachOf d).state = .self
    · simp [State.reachConsumes, State.peerFaults, h, State.hear, State.setReach] at *
    · simp only [State.reachConsumes, State.peerFaults, h, if_false]
      rfl
  | some (.post ..) | some (.fetch ..) | some (.signal ..) | some (.ret ..) | none => rfl

/-! ## The signal table -/

/-- A raise opens an episode or counts (R117, R118). -/
theorem State.raiseSignal_cases (s : State) (n : SignalNo) (source : Station) :
    ((s.signalOf n).pending = true ∧
        s.raiseSignal n source = quiet (s.setSignal n { s.signalOf n with count := bump (s.signalOf n).count })) ∨
      ((s.signalOf n).pending = false ∧
        (s.raiseSignal n source).1 =
          s.setSignal n
            { pending := true, enabled := (s.signalOf n).enabled, count := 1, first := some source
              notice := if (s.signalOf n).enabled then .unread else (s.signalOf n).notice } ∧
        (s.raiseSignal n source).2 =
          { Handed.none with signal := if (s.signalOf n).enabled then [[.signal n source]] else [] }) := by
  cases h : (s.signalOf n).pending with
  | true => exact .inl ⟨rfl, by simp [State.raiseSignal, SignalEntry.raised, SignalEntry.raiseNotice, h, quiet, Handed.none]⟩
  | false =>
    exact .inr ⟨rfl, by simp [State.raiseSignal, SignalEntry.raised, h],
      by simp [State.raiseSignal, SignalEntry.raiseNotice, h, Handed.none]⟩

/-- The mask replaces all 16 enables in one act, and an episode that had no notice while disabled gets one (R121). -/
theorem State.applyMask_signalOf (s : State) (mask : BitVec 16) (n : SignalNo) :
    (s.applyMask mask).1.signalOf n = (s.signalOf n).masked (mask.getLsbD n.val) := by
  simp [State.applyMask, State.signalOf]

/-! ## The fault log -/

/-- The log never loses a record, and one that is full counts instead (R144). -/
theorem State.addFault_cases (s : State) (r : FaultRecord) :
    (s.contain.log.length < 4 ∧ s.addFault r = { s with contain := { s.contain with log := s.contain.log ++ [r] } }) ∨
      (4 ≤ s.contain.log.length ∧
        s.addFault r = { s with contain := { s.contain with overflow := bump s.contain.overflow } }) := by
  by_cases h : s.contain.log.length < 4
  · exact .inl ⟨h, by simp [State.addFault, Config.faultCapacity, h]⟩
  · exact .inr ⟨by omega, by simp [State.addFault, Config.faultCapacity, h]⟩

end Sys2Proof.Machine
end

