-- ==== Sys2Proof/Laws/Round.lean ====
section
/-! SUPPORT. The turn unit, the containment unit, settlement and the round: what each shared operation can do, and its frame. -/

namespace Sys2Proof.Machine

/-! ## The turn unit -/

/-- The member found is one of the set, and no other member comes earlier in the search (02 section 2.1). -/
theorem search_some (k : Station) (set : StationSet) (n : Station) (h : search k set = some n) :
    StationSet.has set n = true ∧ ∀ m, StationSet.has set m = true → (n - k).val ≤ (m - k).val := by
  obtain ⟨hn, as, bs, hl, hnot⟩ := List.find?_eq_some_iff_append.mp h
  refine ⟨hn, fun m hm => ?_⟩
  by_contra hlt
  have hlen : (as ++ n :: bs).length = 12 := by rw [← hl]; simp
  have hget : ∀ (i : Nat) (hi : i < (as ++ n :: bs).length), (as ++ n :: bs)[i] = k + ⟨i, by omega⟩ := by
    intro i hi
    simp [← hl]
  have hlt' : as.length < (as ++ n :: bs).length := by simp
  have hn' : n = k + ⟨as.length, by omega⟩ := by
    have := hget as.length hlt'
    simpa using this
  have hnv : (n - k).val = as.length := by rw [hn']; simp
  have hmv : (m - k).val < as.length := by omega
  have hmem : m ∈ as := by
    have := hget (m - k).val (by omega)
    rw [List.getElem_append_left hmv] at this
    have hkm : k + ⟨(m - k).val, by omega⟩ = m := by
      simp
    rw [hkm] at this
    exact this ▸ List.getElem_mem hmv
  exact absurd hm (by simpa using hnot m hmem)

/-- A search of a set with a member finds one. -/
theorem search_isSome (k : Station) (set : StationSet) (m : Station) (h : StationSet.has set m = true) :
    (search k set).isSome = true := by
  rw [search, List.find?_isSome]
  exact ⟨m, List.mem_map.mpr ⟨m - k, by simp, by simp⟩, h⟩

@[simp] theorem adopt_settle (t : TurnRecord) (st : Stamp) (n : Station) (hello : Option StationClass) :
    (adopt t st n hello).settle = false := rfl

@[simp] theorem adopt_stamp (t : TurnRecord) (st : Stamp) (n : Station) (hello : Option StationClass) :
    (adopt t st n hello).stamp = classStep (grantUpdate st n) n hello := rfl

@[simp] theorem adopt_repair (t : TurnRecord) (st : Stamp) (n : Station) (hello : Option StationClass) :
    (adopt t st n hello).repair = if t.stamp = st then t.repair else bump t.repair := rfl

/-! ## The containment unit -/

/-- The frame of containment entry (R135, R54, R89, R104). -/
theorem State.enterContainment_frame (s : State) (cause : FaultCause) (addr : Word) (length : Nat) :
    (s.enterContainment cause addr length).1 =
      { s.setContained cause addr length with
        sendQueue := s.sendQueue.filter (·.inFlight)
        slots := (s.enterContainment cause addr length).1.slots
        engine := (s.enterContainment cause addr length).1.engine
        path := (s.enterContainment cause addr length).1.path } := by
  unfold State.enterContainment
  rcases State.stopEngine_spec (s.setContained cause addr length) with ⟨-, h⟩ | ⟨-, h⟩ <;> rw [h] <;> rfl

/-- An apply fault changes the containment unit, and at containment entry what R54, R89 and R104 name; nothing else. -/
theorem State.applyFault_frame (s : State) (e : InboundEntry) :
    (s.applyFault e).1 =
      { s with
        station := (s.applyFault e).1.station, contain := (s.applyFault e).1.contain
        sendQueue := (s.applyFault e).1.sendQueue, slots := (s.applyFault e).1.slots
        engine := (s.applyFault e).1.engine, path := (s.applyFault e).1.path } := by
  unfold State.applyFault
  split
  · split <;> rfl
  · split
    · rfl
    · split
      · simp only [Effect.andThen_fst]
        rw [State.enterContainment_frame]
        rfl
      · rfl

/-- The frame of an implication (R140, R141). -/
theorem State.implicated_frame (s : State) (n : Station) (addr : Word) (length : Nat) :
    (s.implicated n addr length).1 =
      { s with
        station := (s.implicated n addr length).1.station, contain := (s.implicated n addr length).1.contain
        sendQueue := (s.implicated n addr length).1.sendQueue, slots := (s.implicated n addr length).1.slots
        engine := (s.implicated n addr length).1.engine, path := (s.implicated n addr length).1.path } := by
  unfold State.implicated
  simp only [Effect.andThen_fst]
  split
  · rw [State.enterContainment_frame]
    rfl
  · split <;> rfl

/-- A CONTAIN that names this station tells the node in every case (R140). -/
theorem State.implicated_tells (s : State) (n : Station) (addr : Word) (length : Nat) :
    [notice .postLost n.val] ∈ (s.implicated n addr length).2.contain := by
  simp [State.implicated, containNotice, Handed.add]

/-- A pending CONTAIN that was sent: a HALTED one that replaced it stays, the late sources of a REPORTED one make a new one, and otherwise none
is pending; the late sources are emptied, and the flag, its cause and the log stay (R9, R131, R137). -/
theorem ContainUnit.sent_spec (c : ContainUnit) (mode : ContainMode) :
    (c.sent mode).late = 0 ∧ (c.sent mode).flag = c.flag ∧ (c.sent mode).cause = c.cause ∧ (c.sent mode).log = c.log ∧
      (c.sent mode).overflow = c.overflow := by
  unfold ContainUnit.sent
  split
  · exact ⟨rfl, rfl, rfl, rfl, rfl⟩
  · split
    · exact ⟨rfl, rfl, rfl, rfl, rfl⟩
    · split <;> exact ⟨rfl, rfl, rfl, rfl, rfl⟩

/-! ## Settlement -/

/-- A release: what each source does with the candidate that was not sent (R6, R11, R43, R55, R107, R131). -/
theorem State.releaseCandidate_frame (s : State) :
    s.releaseCandidate.1 =
      { s.clearCandidate with
        sendQueue := s.releaseCandidate.1.sendQueue, returns := s.releaseCandidate.1.returns
        contain := s.releaseCandidate.1.contain } ∧
      s.releaseCandidate.2 = { Handed.none with sendQueue := s.releaseCandidate.2.sendQueue } := by
  unfold State.releaseCandidate
  split
  · split <;> exact ⟨rfl, rfl⟩
  all_goals exact ⟨rfl, rfl⟩

/-- With no candidate there is nothing to release. -/
theorem State.releaseCandidate_none (s : State) (h : s.span.candidate = none) : s.releaseCandidate = quiet s := by
  have hc : s.clearCandidate = s := by
    cases s with
    | mk _ _ _ _ _ _ span => cases span; simp_all [State.clearCandidate]
  simp [State.releaseCandidate, State.source?, h, hc]

/-- With no candidate an answer settles nothing at the sender. -/
theorem State.settleCandidate_none (s : State) (o : AnswerOutcome) (h : s.span.candidate = none) :
    s.settleCandidate o = quiet s := by
  simp [State.settleCandidate, State.source?, h]

/-- A broadcast that was sent: the HELLO or the CONTAIN is no longer pending (R9, R131, R159). -/
theorem State.broadcastSent_frame (s : State) :
    s.broadcastSent =
      { s with
        span := s.broadcastSent.span, helloPending := s.broadcastSent.helloPending
        contain := s.broadcastSent.contain } := by
  unfold State.broadcastSent
  split <;> rfl

theorem State.broadcastSent_none (s : State) (h : s.span.candidate = none) : s.broadcastSent = s := by
  simp [State.broadcastSent, h]

/-- The addressed station's part of an answer close, with nothing held and no entry for the engine to take. -/
theorem State.settleHolder_quiet (s : State) (taken : Bool) (hp : ∀ e ∈ s.inbound, e.provisional = false)
    (hs : ∀ t, (s.slot t).state ≠ .holding) (he : s.engine ≠ .idle ∨ s.station = .contained) :
    s.settleHolder taken = quiet s := by
  have hh : s.holdingSlot? = none := by
    rw [State.holdingSlot?, List.find?_eq_none]
    intro t _
    simpa using hs t
  simp [State.settleHolder, State.settleProvisional_none s taken hp, State.wakeEngine_quiet s he, hh]

/-- The frame of the addressed station's part: the inbound queue, the engine, the path, the signal table and the fetch table. -/
theorem State.settleHolder_frame (s : State) (taken : Bool) :
    (s.settleHolder taken).1 =
      { s with
        inbound := (s.settleHolder taken).1.inbound, engine := (s.settleHolder taken).1.engine
        path := (s.settleHolder taken).1.path, signals := (s.settleHolder taken).1.signals
        slots := (s.settleHolder taken).1.slots } := by
  have hw : ∀ s' : State, s'.wakeEngine.1 =
      { s' with
        inbound := s'.wakeEngine.1.inbound, engine := s'.wakeEngine.1.engine, path := s'.wakeEngine.1.path
        signals := s'.wakeEngine.1.signals } := by
    intro s'
    unfold State.wakeEngine
    split
    · exact s'.takeHead_frame.1
    · rfl
  unfold State.settleHolder
  simp only [Effect.andThen_fst]
  split
  · rw [(State.decideSlot_frame _ _ _).1, hw]
    rfl
  · simp only [quiet_fst]
    rw [hw]
    rfl

/-! ## The round -/

/-- The end of a counted round: nothing but in LISTENING, where the join-watch count rises and at 4 the station is ACTIVE with its HELLO pending
(R157, R158). -/
theorem State.countRound_cases (s : State) :
    (s.station ≠ .listening ∧ s.countRound = s) ∨
      (s.station = .listening ∧ s.joinWatch + 1 < 4 ∧ s.countRound = { s with joinWatch := s.joinWatch + 1 }) ∨
      (s.station = .listening ∧ 4 ≤ s.joinWatch + 1 ∧
        s.countRound = { s with joinWatch := 4, station := .active, helloPending := true }) := by
  by_cases h : s.station = .listening
  · by_cases h4 : 4 ≤ s.joinWatch + 1
    · exact .inr (.inr ⟨h, h4, by simp only [State.countRound, h, Config.watchLength, h4, if_true]⟩)
    · exact .inr (.inl ⟨h, by omega, by simp only [State.countRound, h, Config.watchLength, h4, if_true, if_false]⟩)
  · exact .inl ⟨h, by simp [State.countRound, h]⟩

/-- A parcel that is answered opens the answer phase; any other ends a counted round (R10, R157). -/
theorem State.afterParcel_cases (s : State) (answered : Bool) (ask : Option (Station × Body)) :
    (answered = true ∧ s.afterParcel answered ask = quiet (s.withPhase (.answer ask none))) ∨
      (answered = false ∧ (s.afterParcel answered ask).1 = s.releaseCandidate.1.endRound.countRound ∧
        (s.afterParcel answered ask).2 = s.releaseCandidate.2) := by
  cases answered with
  | true => exact .inl ⟨rfl, rfl⟩
  | false => exact .inr ⟨rfl, rfl, by simp [State.afterParcel]⟩

/-- A garbled or absent parcel changes the span unit and the turn record, releases a candidate that was transmitted, and may take the station
OFFLINE; no table and no queue of another block changes (R11, R17, R18, R33). -/
theorem State.garbledRound_frame (s : State) (collision : Bool) :
    (s.garbledRound collision).1 =
      { s with
        station := (s.garbledRound collision).1.station, span := (s.garbledRound collision).1.span
        turn := s.turn.setSettle, sendQueue := (s.garbledRound collision).1.sendQueue
        returns := (s.garbledRound collision).1.returns, contain := (s.garbledRound collision).1.contain } := by
  have hd : ∀ s' : State, s'.duplicate.1 =
      { s' with
        station := s'.duplicate.1.station, span := s'.duplicate.1.span, sendQueue := s'.duplicate.1.sendQueue
        returns := s'.duplicate.1.returns } := by
    intro s'
    unfold State.duplicate
    split <;> rfl
  unfold State.garbledRound
  simp only [Effect.andThen_fst, quiet_fst]
  split
  · unfold State.collide
    simp only
    split
    · rw [hd, (State.releaseCandidate_frame _).1]
      rfl
    · simp only [quiet_fst]
      rw [(State.releaseCandidate_frame _).1]
      rfl
  · simp only [quiet_fst]
    rw [(State.releaseCandidate_frame _).1]
    rfl

end Sys2Proof.Machine
end

