-- ==== Sys2Proof/Tests/Slice0.lean ====
section
/-! SUPPORT. Small tests of the commands, each from a rule, a table or a worked sequence of the spec, and for every statement with hypotheses
a state and operands that meet them. -/

namespace Sys2Proof.Tests

open Sys2Proof.Machine Sys2Proof.Safety Sys2Proof.Claims

/-! ## States the tests start from -/

/-- The state after a command. -/
def run (c : Instr) (s : State) : State :=
  match exec c s with
  | .next t => t
  | _ => s

/-- A configuration: LOW, every timing code 0, a window of one page at 0. -/
def cfg (policy : Policy) : StationConfig :=
  { cls := .low, policy := policy, patience := 0, retry := 0, timeout := 0, windowBase := 0, windowPages := 1, signalMask := 0 }

/-- Station 3 in a station state. -/
def station (st : StationState) (policy : Policy) : State :=
  { State.resetWith 3 with station := st, config := some (cfg policy) }

/-- Station 3, ACTIVE under REPORT. -/
def active : State := station .active .report

/-- The reach entry of a station in a state, with silence count 0. -/
def entry (st : ReachState) : ReachEntry := { state := st, silence := 0, timer := .stopped }

/-- A station that receives a round owned by station 4. -/
def receiving (s : State) : State := s.withPhase (.closed 0x010 false false)

/-- Header words of a parcel from station 4 to station 3 of a kind, with the reset stamp and the room flag set, as TABLE 11-1 lays them
out: kind, sender, destination, room and LO, HP, LP. -/
def head (kind : BitVec 4) : Word := kind ++ 0x4#4 ++ 0x3#4 ++ 0b1000#4 ++ 0xB#4 ++ 0xB#4 ++ 0x00#8

/-- The same to ALL. -/
def headAll (kind : BitVec 4) : Word := kind ++ 0x4#4 ++ 0xF#4 ++ 0b1000#4 ++ 0xB#4 ++ 0xB#4 ++ 0x00#8

/-- The stamp of those parcels. -/
def stamp0 : Stamp := { hp := 11, lp := 11, lo := false, high := 0 }

/-- A send-queue entry: a SIGNAL to station 4 with its report flag set. -/
def toFour (inFlight : Bool) : SendEntry :=
  { op := .signal 5, dest := 4, cookie := 0x0101, report := true, fullCount := 0, inFlight := inFlight }

/-- A FETCH to station 4. -/
def fetchFour (tag : Option SlotNo) : SendEntry :=
  { op := .fetch 0x100 2 0x200 tag, dest := 4, cookie := 0x0202, report := false, fullCount := 0, inFlight := tag.isSome }

/-- A candidate of a source. -/
def candidate (source : Source) : Candidate := { source := source, dest := 4, body := .signal 5 }

/-- An ACTIVE station whose parcel waits for its answer; `e` is the entry in flight, with a younger one behind it. -/
def awaiting (s : State) (e : SendEntry) : State :=
  { s with
    sendQueue := [e, toFour false], engine := .stopped
    span := { s.span with phase := .answer none none, callMark := true, candidate := some (candidate .sendQueue) } }

/-- A RETURN to station 4. -/
def retFour (inFlight : Bool) : ReturnEntry := { requester := 4, tag := 2, result := .readError, inFlight := inFlight }

/-- A station whose RETURN waits for its answer. -/
def awaitingReturn : State :=
  { active with
    returns := [retFour true, retFour false]
    span := { active.span with phase := .answer none none, callMark := true, candidate := some (candidate .returnList) } }

/-- The write of a POST head is in flight. -/
def writing (s : State) : State :=
  { s with
    inbound := [{ op := .post 0x40 [7], source := 4, provisional := false }], engine := .inAccess
    path := { s.path with state := .busy .apply (.write 0x40 [7]), lastServed := .apply } }

/-- The read of a FETCH head is in flight. -/
def reading (s : State) : State :=
  { s with
    inbound := [{ op := .fetch 0x40 2 6, source := 4, provisional := false }], engine := .inAccess
    path := { s.path with state := .busy .apply (.read 0x40 2), lastServed := .apply } }

/-- A slot for a fetch from station 4. -/
def slotFour (st : SlotState) (held : Option FetchResult) (deferred : Bool) : FetchSlot :=
  { state := st, dest := 4, landing := 0x200, length := 2, cookie := 0x0202, held := held
    timer := if deferred then .stopped else .running 2000, deferred := deferred }

/-- A station that decides slot 0 at this answer close. -/
def deciding (s : State) (held : FetchResult) (deferred : Bool) : State :=
  { s.setSlot 0 (slotFour .holding (some held) deferred) with span := { s.span with phase := .answer none (some .taken) } }

/-- The composed request: header words 0 to 3 and data word 0. -/
def composed (s : State) (w0 w1 w2 w3 d0 : Word) : State :=
  { s with port := { s.port with header := #v[w0, w1, w2, w3], data := s.port.data.set 0 d0 } }

/-! ## WellFormed -/

/-- A write to an offset that names no word is ill-formed (11 section 11.5). -/
theorem test_wellFormed_refuses_unaligned : (Instr.registerWrite 0x51 0).wellFormed = false := by decide

theorem test_wellFormed_takes_last_word : (Instr.registerWrite 0xFC 0).wellFormed = true := by decide

/-! ## Reset and the queue of commands -/

/-- R114: the access in flight is abandoned when the pin is asserted, and stays so at the release. -/
theorem test_reset_abandons :
    (run (.hardwareResetRelease 9) (run .hardwareResetAssert (writing active))).path.state = .abandoned (.write 0x40 [7]) := by decide

/-- TABLE 9-2, R151: straps above 11 make no station SELF. -/
theorem test_release_strap_12 : ((run (.hardwareResetRelease 12) active).reachOf 11).state = .unknown := by decide

theorem test_step_takes_front : step { State.reset with pending := [.take, .start] } = exec .take { State.reset with pending := [.start] } := rfl

/-! ## Rounds -/

/-- R4, R41: a WAITING destination is passed over, and the oldest eligible entry of another lane is frozen. -/
theorem test_roundMark_passes_waiting :
    ((run .roundMark
        { (active.setReach 4 { state := .waiting, silence := 0, timer := .running 50 }) with
          sendQueue := [toFour false, { toFour false with dest := 6 }] }).sendQueue.map (·.inFlight)) = [false, true] := by decide

/-- TABLE 12-1, round 1: station 6, HP 6, with its settle flag clear, searches from 7 and reaches itself last. -/
theorem test_callClose_search_wraps :
    grant { stamp := { hp := 6, lp := 1, lo := false, high := 0x040 }, settle := false, repair := 0 } 0x048 = some 6 := by decide

/-- TABLE 12-1, round 1: station 3 with the settle flag set takes the lowest caller, itself. -/
theorem test_callClose_settle_lowest :
    (run (.callClose 0x040) { active with span := { active.span with phase := .calling, callMark := true } }).span.phase =
      .closed 0x048 true true := by decide

/-- R7, TABLE 11-1: the header of a HELLO of station 3 with the reset stamp. -/
theorem test_parcelWindow_header :
    (run .parcelWindow
        { active with
          span := { active.span with
            phase := .closed 0x008 true true, callMark := true
            candidate := some { source := .hello, dest := 15, body := .hello .high .halt } } }).span.phase =
      .parcel true (some { header0 := 0x83F8BB00, header1 := 0, body := [3] }) := by decide

/-- 02 section 2.9: a good parcel of a HIGH sender at or below HP sets LO. -/
theorem test_parcelOutcome_grant_update :
    (run (.parcelOutcome (.intact (head 3) 0x010 [5])) (receiving active)).turn.stamp =
      { hp := 4, lp := 11, lo := true, high := 0x010 } := by decide

/-- R8: a garbled round raises the void-run count and sets the settle flag. -/
theorem test_parcelOutcome_void :
    (run (.parcelOutcome .garbled) (receiving { active with turn := { active.turn with settle := false } })).turn.settle = true ∧
      (run (.parcelOutcome .garbled) (receiving active)).span.voidRun = 1 := by decide

/-- R95: a POST beyond the exposed window is answered OUTSIDE, though the queue is full too. -/
theorem test_answerWindow_outside_before_full :
    (run .answerWindow
        { active with
          inbound := List.replicate 16 { op := .signal 1, source := 5, provisional := false }
          span := { active.span with phase := .answer (some (4, .post 0x1000 [1])) none } }).span.phase =
      .answer none (some .outside) := by decide

/-- R96: the last word of the window is inside. -/
theorem test_answerWindow_last_word :
    (run .answerWindow { active with span := { active.span with phase := .answer (some (4, .post 0xFFC [1])) none } }).span.phase =
      .answer none (some .taken) := by decide

/-- TABLE 12-3, round D: the FULL that meets the limit fails the lane, and the destination is not WAITING. -/
theorem test_answerClose_full_at_patience :
    (run (.answerClose (.code 2)) (awaiting (active.setReach 4 (entry .reachable)) { toFour true with fullCount := 3 })).completions =
      [.request 0x0101 .signal 4 .fullExhausted, .request 0x0101 .signal 4 .cancelled] := by decide

/-- TABLE 12-4: a deferred expiry takes effect at a VOID answer close. -/
theorem test_answerClose_deferred_expiry :
    (run (.answerClose .garbled) (deciding active (.ok [1, 2]) true)).completions = [.request 0x0202 .fetch 4 .fetchTimeout] := by
  decide

/-! ## Timers and node memory -/

/-- TABLE 12-3: the expiry finds station 9 WAITING. -/
theorem test_retryTimerExpiry_ends_wait :
    (run (.retryTimerExpiry 9) (active.setReach 9 { state := .waiting, silence := 2, timer := .running 200 })).reachOf 9 =
      { state := .reachable, silence := 2, timer := .stopped } := by decide

/-- TABLE 12-4: an expiry at a HOLDING slot is deferred. -/
theorem test_fetchTimerExpiry_defers :
    ((run (.fetchTimerExpiry 0) (active.setSlot 0 (slotFour .holding (some .readError) false))).slot 0).deferred = true := by decide

/-- TABLE 12-5: under REPORT a failed write is dropped, recorded and told to the node. -/
theorem test_applyWriteEnd_error :
    (run (.applyWriteEnd .error) (writing active)).completions = [.station .localFault 1 4] ∧
      (run (.applyWriteEnd .error) (writing active)).inbound = [] := by decide

/-- R101: the first words of a read, as many as its length, make the RETURN. -/
theorem test_applyReadEnd_words :
    (run (.applyReadEnd (.ok (Vector.ofFn fun i => BitVec.ofNat 32 i.val))) (reading active)).returns =
      [{ requester := 4, tag := 6, result := .ok [0, 1], inFlight := false }] := by decide

/-- R84: a landing that fails ends its fetch with LAND_ERROR. -/
theorem test_landingEnd_error :
    (run (.landingEnd .error)
        { active.setSlot 2 (slotFour .landing none false) with
          path := { active.path with state := .busy (.landing 2) (.write 0x200 [1, 2]) } }).completions =
      [.request 0x0202 .fetch 4 .landError] := by decide

/-- R114: the ending of an abandoned access frees the path, in reset too. -/
theorem test_abandonedAccessEnd_in_reset :
    (run (.abandonedAccessEnd .ok) (run .hardwareResetAssert (writing active))).path.state = .free := by decide

/-! ## The node port -/

/-- R170 check 5: a range that ends at 2^32 is admitted, and one that wraps is not. -/
theorem test_post_last_word :
    (run .post (composed active 0x00010400 0xFFFFFFFC 0 0 9)).port.result = .accepted ∧
      (run .post (composed active 0x00020400 0xFFFFFFFC 0 0 9)).port.result = .badAddress := by decide

/-- R39: the entry holds the request's cookie, and no report flag of a FETCH. -/
theorem test_fetch_entry :
    (run .fetch (composed active 0x80020402 0x100 0x200 0xFFFF0202 0)).sendQueue = [fetchFour none] := by decide

/-- R170: SIGNAL 16 has no entry. -/
theorem test_signal_16 : (run .signal (composed active 0x10000400 0 0 0 0)).port.result = .badSignal := by decide

/-- R170 check 1 stands before check 2. -/
theorem test_undefinedKind_state_first :
    (run .undefinedKind (station .contained .halt)).port.result = .contained ∧ (run .undefinedKind active).port.result = .badKind := by
  decide

/-- R154, R126: START takes the class, the policy and the mask. -/
theorem test_start_takes_configuration :
    (run .start (composed (State.resetWith 3) 0x8 0x3 0x1000 1 0x8001)).config.map (fun c => (c.cls, c.policy, c.windowBase)) =
      some (.high, .halt, 0x1000) ∧
      ((run .start (composed (State.resetWith 3) 0x8 0x3 0x1000 1 0x8001)).signalOf 15).enabled = true := by decide

/-- TABLE 9-2: RESTART keeps the fault log and clears the flag. -/
theorem test_restart_keeps_log :
    (run .restart (run (.applyWriteEnd .error) (writing (station .active .report)))).contain.log.length = 1 ∧
      (run .restart (station .contained .halt)).station = .listening := by decide

/-- R121: an episode that opened while disabled gets its notice, and the mask in force is shown. -/
theorem test_setMask_notifies :
    (run .setMask (composed (active.setSignal 4 { pending := true, enabled := false, count := 3, first := some 9, notice := .none })
        0xA 0 0 0 0x0010)).completions = [.signal 4 9] ∧
      (run .setMask (composed active 0xA 0 0 0 0x0010)).port.resultView[0] = 0x0010 := by decide

/-- R123: the acknowledgement returns the raise count and the first source. -/
theorem test_ackSignal_returns_episode :
    (run .ackSignal (composed (active.setSignal 4 { pending := true, enabled := true, count := 3, first := some 9, notice := .read })
        0x0400000B 0 0 0 0)).port.resultView[0] = 0x0903 := by decide

/-- R146: the record at an index, and NO_RECORD past the log. -/
theorem test_readFault_words :
    (run .readFault (composed (run (.applyWriteEnd .error) (writing active)) 0xC 0 0 0 0)).port.resultView = #v[0x00010400, 0x40, 0, 0] ∧
      (run .readFault (composed (run (.applyWriteEnd .error) (writing active)) 0xC 1 0 0 0)).port.result = .noRecord := by decide

/-- R147: CONTAINED holds its log. -/
theorem test_clearFaults_held_log :
    (run .clearFaults (station .contained .halt)).port.result = .logHeld ∧ (run .clearFaults active).port.result = .accepted := by decide

/-- R74, TABLE 11-9: state, silence count and timer. -/
theorem test_readReach_word :
    (run .readReach (composed (active.setReach 9 { state := .waiting, silence := 2, timer := .running 200 }) 0xE 9 0 0 0)).port.resultView[0]
      = 0x122 := by decide

/-- R179, R119: the popped signal notice is in the VIEW words, and its signal is READ. -/
theorem test_take_signal_notice :
    let s : State :=
      { active.setSignal 4 { pending := true, enabled := true, count := 3, first := some 9, notice := .unread } with
        completions := [.signal 4 9] }
    (run .take s).port.view[0] = 0x0942 ∧ ((run .take s).signalOf 4).notice = .read := by decide

/-- R166: a write to the view is ignored, and a write to SUBMIT submits the composed kind. -/
theorem test_registerWrite_submit :
    run (.registerWrite 0x58 1) active = active ∧
      (run (.registerWrite 0x50 1) (composed active 0x9 0 0 0 0)).station = .listening := by decide

/-! ## States and operands that meet the hypotheses of the statements -/

/-- Station 3 with work in every block: a FETCH to 4 with tag 1 in flight and awaiting its answer, a lane to 5 behind a full inbound queue,
slot 0 AWAITING, slot 2 landing on the path, a POST in PATH_WAIT, an episode with its notice, and one record of each type. -/
def busy : State :=
  { active with
    pending := [.answerClose (.code 1)]
    joinWatch := 4
    sendQueue := [fetchFour (some 1), { toFour false with dest := 5 }]
    reach := (active.reach.set 4 (entry .reachable)).set 5 { state := .waiting, silence := 0, timer := .running 50 }
    slots := (active.slots.set 0 (slotFour .awaiting none false)).set 2 (slotFour .landing none false)
    inbound := [{ op := .post 0x40 [7], source := 4, provisional := false }]
    engine := .pathWait
    path :=
      { active.path with state := .busy (.landing 2) (.write 0x200 [1, 2]), applyWaiting := some (.write 0x40 [7]) }
    signals := active.signals.set 4 { pending := true, enabled := true, count := 3, first := some 9, notice := .unread }
    completions := [.signal 4 9, .request 0x0303 .post 4 .done, .station .spanUnsteady 1 8]
    span := { active.span with phase := .answer none none, callMark := true, candidate := some (candidate .sendQueue) } }

/-- Its state after the answer close. -/
def busyAfter : State := run (.answerClose (.code 1)) { busy with pending := [] }

theorem busy_steps : step busy = .next busyAfter := rfl

/-- Station 3 CONTAINED, with its HALTED CONTAIN pending, and a round mark to come. -/
def contained : State :=
  { station .contained .halt with
    pending := [.roundMark]
    engine := .stopped
    contain :=
      { flag := true, cause := some .applyFault, late := 0, overflow := 255
        pendingContain := some { mode := .halted, cause := .applyFault, named := 0, addr := 0x40, length := 1 }
        log := List.replicate 4 { cause := .applyFault, peer := 4, addr := 0x40, length := 1, halted := false } } }

/-- Station 3 LISTENING, three counted rounds into its watch, with the last of them to end. -/
def listening : State :=
  { station .listening .report with
    pending := [.parcelOutcome .empty], joinWatch := 3, span := { active.span with phase := .closed 0 false true } }

theorem contained_steps : step contained = .next (run .roundMark { contained with pending := [] }) := rfl

theorem listening_steps : step listening = .next (run (.parcelOutcome .empty) { listening with pending := [] }) := rfl

theorem witness_StepRunsFrontCommand : State.reset.pending = [] ∧ busy.pending = .answerClose (.code 1) :: [] := by decide

theorem witness_AssertSilencesStation :
    (run .hardwareResetAssert active).held = true ∧ busy.held = false ∧
      busy.path.state = .busy (.landing 2) (.write 0x200 [1, 2]) := by decide

theorem witness_HeldStationIgnores :
    (run .hardwareResetAssert busy).held = true ∧ releases .roundMark = false ∧ Instr.roundMark ≠ .take ∧
      Instr.roundMark ≠ .hardwareResetAssert ∧ ∀ e, Instr.roundMark ≠ .abandonedAccessEnd e :=
  ⟨by decide, by decide, by decide, by decide, fun _ => by simp⟩

/-- The request of a START. -/
def startRequest : State := composed (State.resetWith 3) 0x8 0x3 0x1000 1 0x8001

theorem witness_RegistersHaveTheirWriters :
    (exec .start startRequest = .next (run .start startRequest) ∧ releases .start = false ∧
        (run .start startRequest).config ≠ startRequest.config) ∧
      (exec (.parcelOutcome (.intact (head 3) 0x010 [5])) (receiving active) =
          .next (run (.parcelOutcome (.intact (head 3) 0x010 [5])) (receiving active)) ∧
        (run (.parcelOutcome (.intact (head 3) 0x010 [5])) (receiving active)).turn ≠ (receiving active).turn) :=
  ⟨⟨rfl, by decide, by decide⟩, rfl, by decide⟩

/-- A station that has joined meets the law of one that has not. -/
theorem joiningHolds_active (s : State) (h : s.station = .active) : JoiningHolds s := by
  intro h'
  rcases h' with h' | h' <;> rw [h] at h' <;> cases h'

theorem joiningHolds_listening : JoiningHolds listening := by
  unfold JoiningHolds
  decide

theorem joiningHolds_reset : JoiningHolds startRequest := by
  unfold JoiningHolds
  decide

theorem witness_StationStateMovesAsListed :
    (run (.hardwareResetRelease 3) active).station ≠ active.station ∧
      (JoiningHolds startRequest ∧ (run .start startRequest).station ≠ startRequest.station) ∧
      (JoiningHolds listening ∧ (run (.parcelOutcome .empty) listening).station ≠ listening.station) ∧
      (run (.applyWriteEnd .error) (writing (station .active .halt))).station ≠ .active ∧
      (run (.parcelOutcome (.intact ((head 3) ^^^ 0x07000000) 0 [5])) (receiving active)).station = .offline ∧
      (run .restart active).station ≠ active.station :=
  ⟨by decide, ⟨joiningHolds_reset, by decide⟩, ⟨joiningHolds_listening, by decide⟩, by decide, by decide, by decide⟩

theorem witness_FaultsStandUntilReset :
    exec .roundMark contained = .next (run .roundMark contained) ∧ releases .roundMark = false ∧
      restarts .roundMark contained = false ∧ clears .roundMark contained = false ∧ contained.contain.flag = true ∧
      contained.station = .contained ∧ contained.contain.log.length = 4 :=
  ⟨rfl, by decide, by decide, by decide, by decide, by decide, by decide⟩

/-! ### A state with work in every block meets every law -/

theorem witness_CountsKept : Counts busy ∧ step busy = .next busyAfter := by
  refine ⟨⟨by decide, by decide, by decide, by decide, by decide, by decide, by decide, by decide, ?_⟩, rfl⟩
  simp [busy, countInRange, Config.countMax]

theorem witness_BudgetKept : LandingAgrees busy ∧ Capacity busy ∧ step busy = .next busyAfter := by
  refine ⟨?_, ?_, rfl⟩
  · unfold LandingAgrees; decide
  · unfold Capacity; decide

theorem busy_noticesOnce : NoticesOnce busy := fun k => by cases k <;> decide

theorem busy_signalsAgree : SignalsAgree busy := by
  unfold SignalsAgree SignalForm
  decide

theorem witness_NoticesKept :
    UnstartedHolds busy ∧ NoticesOnce busy ∧ SignalsAgree busy ∧ step busy = .next busyAfter :=
  ⟨fun h => (by cases h), busy_noticesOnce, busy_signalsAgree, rfl⟩

/-- A station with work in every block, and one that is UNSTARTED. -/
theorem witness_CountsFitTheStatusWord :
    (Counts busy ∧ Capacity busy ∧ NoticesOnce busy ∧ SignalsAgree busy ∧ busy.config = some (cfg .report) ∧ busy.held = false) ∧
      UnstartedHolds (State.resetWith 3) ∧ (State.resetWith 3).station = .unstarted :=
  ⟨⟨witness_CountsKept.1, witness_BudgetKept.2.1, busy_noticesOnce, busy_signalsAgree, rfl, rfl⟩, by unfold UnstartedHolds; decide, rfl⟩

theorem busy_roundAgrees : RoundAgrees busy := by
  unfold RoundAgrees
  decide

theorem contained_roundAgrees : RoundAgrees contained := by
  unfold RoundAgrees
  decide

theorem contained_containedHolds : ContainedHolds contained := by
  unfold ContainedHolds
  decide

theorem busy_engineAgrees : EngineAgrees busy := by
  unfold EngineAgrees
  decide

theorem contained_engineAgrees : EngineAgrees contained := by
  unfold EngineAgrees
  decide

/-- A station held in reset while an abandoned access runs. -/
theorem heldHolds_in_reset : HeldHolds (run .hardwareResetAssert busy) ∧ (run .hardwareResetAssert busy).held = true := by
  unfold HeldHolds
  decide

theorem witness_EngineKept :
    RoundAgrees busy ∧ ContainedHolds busy ∧ HeldHolds busy ∧ EngineAgrees busy ∧ HeadAgrees busy ∧ step busy = .next busyAfter := by
  refine ⟨busy_roundAgrees, ?_, ?_, busy_engineAgrees, ?_, rfl⟩
  · intro _ h; cases h
  · intro h; cases h
  · unfold HeadAgrees
    intro _
    exact ⟨by decide, by decide, by decide, fun h => by cases h⟩

/-- A station whose entry waits for its answer. -/
theorem busy_candidateAgrees : CandidateAgrees busy := by
  intro c h
  cases h
  decide

theorem witness_RoundKept : RoundAgrees busy ∧ CandidateAgrees busy ∧ step busy = .next busyAfter :=
  ⟨busy_roundAgrees, busy_candidateAgrees, rfl⟩

theorem witness_ContainmentKept :
    EngineAgrees contained ∧ RoundAgrees contained ∧ CandidateAgrees contained ∧ ContainmentAgrees contained ∧
      PendingAgrees contained ∧ ContainedHolds contained ∧
      step contained = .next (run .roundMark { contained with pending := [] }) := by
  refine ⟨contained_engineAgrees, contained_roundAgrees, fun _ h => (by cases h), ?_, ?_, contained_containedHolds, rfl⟩
  · unfold ContainmentAgrees; decide
  · unfold PendingAgrees; decide

theorem busy_reachAgrees : ReachAgrees busy := by
  unfold ReachAgrees
  decide

theorem witness_ReachTableKept : ReachAgrees busy ∧ step busy = .next busyAfter := ⟨busy_reachAgrees, rfl⟩

theorem witness_FetchTableKept : TagsAgree busy ∧ LandingAgrees busy ∧ step busy = .next busyAfter :=
  ⟨by unfold TagsAgree; decide, witness_BudgetKept.1, rfl⟩

theorem busy_holdingAgrees : HoldingAgrees busy := by
  unfold HoldingAgrees
  decide

/-- A provisional entry is held while this station drives TAKEN. -/
theorem witness_HoldingKept :
    HoldingAgrees
        { active with
          inbound := [{ op := .signal 1, source := 4, provisional := true }]
          span := { active.span with phase := .answer none (some .taken) } } ∧
      HoldingAgrees (deciding active .readError true) ∧ HoldingAgrees busy ∧ step busy = .next busyAfter := by
  refine ⟨?_, ?_, busy_holdingAgrees, rfl⟩ <;> unfold HoldingAgrees <;> decide

theorem witness_ClosedStationsHaveNothingWaiting :
    RoundAgrees busy ∧ ReachAgrees busy ∧ HoldingAgrees busy ∧ WaitsAgree busy ∧ LanesAgree busy ∧ step busy = .next busyAfter := by
  refine ⟨busy_roundAgrees, busy_reachAgrees, busy_holdingAgrees, ?_, ?_, rfl⟩
  · unfold WaitsAgree; decide
  · unfold LanesAgree; decide

theorem witness_JoiningKept :
    RoundAgrees listening ∧ UnstartedHolds listening ∧ JoiningHolds listening ∧
      step listening = .next (run (.parcelOutcome .empty) { listening with pending := [] }) :=
  ⟨by unfold RoundAgrees; decide, fun h => (by cases h), joiningHolds_listening, rfl⟩

/-! ### The round -/

/-- Header word 0 of a SIGNAL from station 3 to station 5. -/
def ownHead : Word := 0x3358BB00

/-- The four cases of the owner: the settle flag, a LOW station owed, a HIGH caller, no HIGH caller; and an empty picture. -/
theorem witness_GrantFollowsCases :
    grant { stamp := { stamp0 with high := 0x800 }, settle := true, repair := 0 } 0x802 = some 1 ∧
      grant { stamp := { stamp0 with lo := true, high := 0x800 }, settle := false, repair := 0 } 0x802 = some 1 ∧
      grant { stamp := { stamp0 with high := 0x800 }, settle := false, repair := 0 } 0x802 = some 11 ∧
      grant { stamp := { stamp0 with lp := 1, high := 0x800 }, settle := false, repair := 0 } 0x006 = some 2 ∧
      grant { stamp := stamp0, settle := true, repair := 0 } 0 = none := by decide

/-- A station that receives, before and after PARCEL_WINDOW. -/
theorem receives_in_both_phases :
    Receives (receiving active) 0x010 false ∧ Receives (active.withPhase (.parcel false none)) 0x010 false ∧
      run .parcelWindow (receiving active) = active.withPhase (.parcel false none) := by decide

/-- A HIGH sender, a LOW sender and a HELLO, received; and a parcel this station sent. -/
theorem witness_AdoptionOnGoodParcel :
    (active.withPhase (.parcel false (some { header0 := ownHead, header1 := 0, body := [5] }))).takesPart = true ∧
      Carries ownHead 0 3 stamp0 ∧
    Receives (receiving active) 0x010 false ∧ active.strap.toNat ≠ (4 : Station).val ∧
      (Carries (head 3) 0x010 4 { stamp0 with high := 0x010 } ∧ StationSet.has (0x010 : StationSet) 4 = true) ∧
      (Carries (head 3) 0 4 stamp0 ∧ StationSet.has (0 : StationSet) 4 = false) ∧
      (Carries (headAll 8) 0 4 stamp0 ∧ announced (carried (headAll 8) 0 [3]) = some .high) := by decide

/-- A receiver with another record, and the sender itself. -/
theorem witness_StationsAgreeAfterGoodParcel :
    Carries (head 3) 0 4 stamp0 ∧ Receives (receiving active) 0x010 false ∧ active.strap.toNat ≠ (4 : Station).val ∧
      (Receives (receiving { active with strap := 5, turn := { active.turn with stamp := { stamp0 with hp := 2, lo := true } } }) 0x010
          false ∧ (5#4).toNat ≠ (4 : Station).val) ∧
      ({ active with strap := 4 }.withPhase (.parcel false (some { header0 := head 3, header1 := 0, body := [5] }))).takesPart = true := by
  decide

/-- A parcel that is answered, one of a broadcast kind that is malformed, and one that this station sent. -/
theorem witness_GoodParcelIsHeard :
    (let s : State :=
        { active with
          span := { active.span with
            phase := .parcel false (some { header0 := ownHead, header1 := 0, body := [5] }), callMark := true
            candidate := some (candidate .sendQueue) } };
      s.takesPart = true ∧ s.source? = some .sendQueue ∧ Carries ownHead 0 3 stamp0 ∧ plain (carried ownHead 0 [5]) = true ∧
        windowFollows (readHeader ownHead 0) = true) ∧
    Receives (receiving active) 0x010 false ∧ Carries (head 3) 0 4 stamp0 ∧ active.strap.toNat ≠ (4 : Station).val ∧
      (plain (carried (head 3) 0 [5]) = true ∧ windowFollows (readHeader (head 3) 0) = true) ∧
      (Carries (headAll 9) 0 4 stamp0 ∧ plain (carried (headAll 9) 0 []) = true ∧
        windowFollows (readHeader (headAll 9) 0) = false) := by decide

theorem witness_HelloRestartsPeer :
    Carries (headAll 8) 0 4 stamp0 ∧ carried (headAll 8) 0 [3] = some (.hello .high .halt) ∧ active.strap.toNat ≠ (4 : Station).val ∧
      (Receives (receiving active) 0x010 false ∧ ((receiving active).reachOf 4).state = .unknown) ∧
      (Receives (receiving (active.setReach 4 (entry .contained))) 0x010 false ∧
        ((receiving (active.setReach 4 (entry .contained))).reachOf 4).state = .contained) := by decide

/-- The body words of a CONTAIN of length 4 that names nobody: HALTED and REPORTED. -/
theorem witness_ContainClosesPeer :
    Carries (headAll 9) 0 4 stamp0 ∧ active.strap.toNat ≠ (4 : Station).val ∧ active.namedBy 0 = false ∧
      carried (headAll 9) 0 [0x00000401, 0x40] = some (.contain .halted .applyFault 0 0x40 4) ∧
      carried (headAll 9) 0 [0x00000400, 0x40] = some (.contain .reported .applyFault 0 0x40 4) ∧
      (Receives (receiving (active.setReach 4 (entry .waiting))) 0x010 false ∧
        ((receiving (active.setReach 4 (entry .waiting))).reachOf 4).state = .waiting ∧ active.engine ≠ .roomWait) ∧
      (Receives (receiving (active.setReach 4 (entry .contained))) 0x010 false ∧
        ((receiving (active.setReach 4 (entry .contained))).reachOf 4).state = .contained) := by decide

/-- A CONTAIN that names station 3, HALTED from a peer that it closes and REPORTED: at an ACTIVE station under either policy, with an engine in
every state that the clauses name apart, in LISTENING and in CONTAINED. -/
theorem witness_ContainNamesStation :
    Carries (headAll 9) 0 4 stamp0 ∧ active.strap.toNat ≠ (4 : Station).val ∧ active.namedBy 0x008 = true ∧
      carried (headAll 9) 0 [0x00080401, 0x40] = some (.contain .halted .applyFault 0x008 0x40 4) ∧
      carried (headAll 9) 0 [0x00080400, 0x40] = some (.contain .reported .applyFault 0x008 0x40 4) ∧
      closes active 4 .halted = true ∧ closes active 4 .reported = false ∧
      closes (active.setReach 4 (entry .contained)) 4 .halted = false ∧
      (∀ e ∈ [EngineState.idle, .inAccess, .roomWait],
        Receives (receiving { station .active .halt with engine := e }) 0x010 false) ∧
      ((station .active .halt).policy = .halt ∧ (station .active .halt).contain.flag = false) ∧
      Receives (receiving active) 0x010 false ∧ active.policy = .report ∧
      Receives (receiving (station .listening .report)) 0x010 false ∧ Receives (receiving contained) 0x010 false := by decide

theorem witness_VoidRoundSetsSettle :
    Receives (receiving { active with span := { active.span with voidRun := 7 } }) 0x010 false ∧
      Receives (receiving { active with span := { active.span with voidRun := 255 } }) 0x010 false := by decide

/-- A station that transmitted in a round, with the settle flag as it was at call close. -/
def sending (s : State) (settle : Bool) (collisions : Nat) : State :=
  { s with
    sendQueue := [toFour true]
    span := { s.span with
      phase := .parcel settle (some { header0 := head 3, header1 := 0, body := [5] }), callMark := true
      candidate := some (candidate .sendQueue), settleCollision := collisions } }

/-- Each source, with and without the settle flag, at either side of the fourth collision and of the void-run count 8. -/
theorem witness_SettleCollisionsEndOffline :
    (∀ source ∈ [Source.sendQueue, .returnList, .contain, .hello], ∀ voidRun ∈ [6, 7, 254, 255], ∀ collisions ∈ [0, 2, 3],
        ∀ s ∈ [active, contained], ∀ settle ∈ [true, false],
        let u := sending s settle collisions
        let v : State := { u with span := { u.span with voidRun := voidRun, candidate := some (candidate source) } }
        v.takesPart = true ∧ v.station ≠ .listening ∧ v.span.settleCollision ≤ 3 ∧ v.source? = some source) ∧
    (sending active false 0).takesPart = true ∧ (sending active false 0).source? = some .sendQueue ∧
      (sending active true 3).takesPart = true ∧ (sending active true 3).station = .active ∧
      (sending active true 3).span.settleCollision = 3 ∧ (sending active true 2).span.settleCollision < 3 ∧
      (sending contained true 3).takesPart = true ∧ (sending contained true 3).station = .contained := by decide

/-- A parcel that an answer window follows and a broadcast, at an ACTIVE, a LISTENING and a CONTAINED station. -/
theorem witness_OwnNumberIsADuplicate :
    (Carries 0x83F8BB00 0 3 stamp0 ∧ windowFollows (readHeader 0x83F8BB00 0) = false ∧ windowFollows (readHeader ownHead 0) = true ∧
      Receives (receiving (station .listening .report)) 0x010 false) ∧
    Carries ownHead 0 3 stamp0 ∧ active.strap.toNat = (3 : Station).val ∧ Receives (receiving active) 0x010 false ∧
      Receives (receiving contained) 0x010 false := by decide

/-- The least number that is no station number, in each of the three fields; and a third station, a LISTENING one that is addressed, and one whose
answers are barred, at an answer close. -/
theorem witness_RoundsThatOnlyCount :
    (∀ x ∈ [(active, (none : Option (Station × Body))), (station .listening .report, none),
          (station .listening .report, some (4, .signal 5)),
          ({ contained with span := { contained.span with callBar := true } }, some (4, .signal 5))],
        let s := x.1.withPhase (.answer x.2 none)
        s.takesPart = true ∧ (x.2 = none ∨ s.station = .listening ∨ s.span.callBar = true) ∧ s.span.candidate = none ∧
          (∀ e ∈ s.inbound, e.provisional = false) ∧ (∀ k, (s.slot k).state ≠ .holding) ∧
          (s.engine = .idle → s.inbound = [] ∨ s.station = .contained)) ∧
    (listening.takesPart = true ∧ listening.span.phase = .closed 0 false true) ∧ Receives (receiving active) 0x010 false ∧
      (readHeader 0x3C38BB00 0).sender = 12 ∧ (readHeader 0x3438CB00 0).hp = 12 ∧ (readHeader 0x3438BC00 0).lp = 12 := by decide

/-- A station that sends its HELLO. -/
def greeting : State :=
  let c : Candidate := { source := .hello, dest := 15, body := .hello .low .report }
  { active with
    helloPending := true
    span := { active.span with phase := .parcel true (some (active.transmission c)), callMark := true, candidate := some c } }

/-- A CONTAIN of a mode and a length that names nobody. -/
def ownContain (mode : ContainMode) (length : Nat) : Candidate :=
  { source := .contain, dest := 15, body := .contain mode .applyFault 0 0x40 length }

/-- A station that sends it, with a pending CONTAIN of a mode and with late sources. -/
def containing (mode pending : ContainMode) (length : Nat) (late : StationSet) : State :=
  { active with
    contain := { active.contain with
      pendingContain := some { mode := pending, cause := .applyFault, named := 0, addr := 0x40, length := 1 }, late := late }
    span := { active.span with
      phase := .parcel true (some (active.transmission (ownContain mode length))), callMark := true
      candidate := some (ownContain mode length) } }

/-- A HELLO; and a CONTAIN of the least and of the greatest length, with each thing that it may leave pending. -/
theorem witness_HelloIsSentOnce :
    (greeting.takesPart = true ∧ greeting.strap.toNat = (3 : Station).val ∧ (greeting.reachOf 3).state = .self ∧
      greeting.span.candidate = some { source := .hello, dest := 15, body := .hello .low .report } ∧
      greeting.span.phase =
        .parcel true (some (greeting.transmission { source := .hello, dest := 15, body := .hello .low .report }))) ∧
      active.namedBy 0 = false ∧
      ∀ length ∈ [1, 16], ∀ x ∈ [(ContainMode.halted, ContainMode.halted, (0 : StationSet)), (.reported, .reported, 0),
          (.reported, .reported, 0x010), (.reported, .halted, 0)],
        let s := containing x.1 x.2.1 length x.2.2
        s.takesPart = true ∧ (s.reachOf 3).state = .self ∧ s.span.candidate = some (ownContain x.1 length) ∧
          s.span.phase = .parcel true (some (s.transmission (ownContain x.1 length))) ∧ s.contain.late = x.2.2 := by decide

/-- A HALTED CONTAIN, a REPORTED one, a HELLO, a RETURN behind one that is not offered, none in CONTAINED, LISTENING, and barred calls. -/
theorem witness_SelectorOffersInOrder :
    (Selects contained ∧ contained.contain.pendingContain.isSome = true) ∧
      (Selects (run (.applyWriteEnd .error) (writing active)) ∧
        (run (.applyWriteEnd .error) (writing active)).contain.pendingContain.any (·.mode == .reported) = true) ∧
      (Selects { active with helloPending := true } ∧ active.contain.pendingContain = none) ∧
      (Selects { active.setReach 5 (entry .contained) with returns := [{ retFour false with requester := 5 }, retFour false] } ∧
        (active.setReach 5 (entry .contained)).offersReturn { retFour false with requester := 5 } = false ∧
        (active.setReach 5 (entry .contained)).offersReturn (retFour false) = true ∧ active.helloPending = false) ∧
      (Selects (station .contained .halt) ∧ (station .contained .halt).contain.pendingContain = none ∧
        ∀ x ∈ (station .contained .halt).returns, (station .contained .halt).offersReturn x = false) ∧
      ((station .listening .report).takesPart = true ∧ (station .listening .report).span.phase = .none) ∧
      (({ active with span := { active.span with callBar := true } } : State).takesPart = true) := by decide

/-- An eligible FETCH behind an entry whose destination is WAITING; and a queue of which none is eligible. -/
def twoLanes : State :=
  { active.setReach 5 { state := .waiting, silence := 0, timer := .running 50 } with
    sendQueue := [{ toFour false with dest := 5 }, fetchFour none] }

theorem twoLanes_waits (older younger : List SendEntry) (e : SendEntry) (h : [{ toFour false with dest := 5 }] = older ++ e :: younger) :
    ¬Eligible twoLanes older e := by
  cases older with
  | nil =>
    simp only [List.nil_append, List.cons.injEq] at h
    rw [← h.1]
    rintro ⟨-, h' | h', -⟩ <;> exact absurd h' (by decide)
  | cons a l => simp at h

theorem witness_OldestEligibleEntryIsOffered :
    (Selects twoLanes ∧ twoLanes.station = .active ∧ twoLanes.contain.pendingContain = none ∧ twoLanes.helloPending = false ∧
        (∀ x ∈ twoLanes.returns, twoLanes.offersReturn x = false) ∧
        twoLanes.sendQueue = [{ toFour false with dest := 5 }] ++ fetchFour none :: [] ∧
        Eligible twoLanes [{ toFour false with dest := 5 }] (fetchFour none) ∧
        ∀ a x b, [{ toFour false with dest := 5 }] = a ++ x :: b → ¬Eligible twoLanes a x) ∧
      (Selects active ∧ ∀ older e younger, active.sendQueue = older ++ e :: younger → ¬Eligible active older e) := by
  refine ⟨⟨by decide, by decide, by decide, by decide, by decide, rfl, ?_, fun a x b => twoLanes_waits a b x⟩, by decide, ?_⟩
  · exact ⟨by decide, by decide, fun _ => ⟨0, by decide⟩⟩
  · intro older e younger h
    simp [active, station, State.resetWith] at h

/-- A caller of a source, or a station that did not call. -/
def calling (s : State) (source : Option Source) : State :=
  { s with
    sendQueue := [toFour (source == some .sendQueue)], returns := [retFour (source == some .returnList)]
    turn := { s.turn with settle := false }
    span := { s.span with phase := .calling, callMark := source.isSome, candidate := source.map candidate } }

/-- The caller alone owns the round; with station 2 LOW and called first after LP 1 it does not. -/
theorem witness_CallCloseGrantsOrReleases :
    (∀ src ∈ [Source.contain, .hello, .returnList, .sendQueue],
        (calling active (some src)).takesPart = true ∧ (calling active (some src)).span.phase = .calling ∧
          (calling active (some src)).span.callMark = true ∧ (calling active (some src)).source? = some src ∧
          grant (calling active (some src)).turn (StationSet.add 0 3) = some 3 ∧
          grant (calling active (some src)).turn (StationSet.add 0x004 3) ≠ some 3) ∧
      ((calling contained (some .sendQueue)).takesPart = true ∧ (calling contained (some .sendQueue)).source? = some .sendQueue ∧
        grant (calling contained (some .sendQueue)).turn (StationSet.add 0x004 3) ≠ some 3) ∧
      ((calling active none).takesPart = true ∧ (calling active none).span.callMark = false ∧ (calling active none).source? = none) ∧
      active.strap.toNat = (3 : Station).val := by decide

theorem witness_ParcelWindowSendsFrozenBody :
    (let s : State :=
        { active with span := { active.span with phase := .closed 0x008 true false, candidate := some (candidate .sendQueue) } };
      s.takesPart = true ∧ (0x008 : StationSet) ≠ 0 ∧ s.span.phase = .closed 0x008 true false ∧
        s.span.candidate = some (candidate .sendQueue)) ∧
      ((receiving active).takesPart = true ∧ (receiving active).span.phase = .closed 0x010 false false) := by decide

/-- The greatest header, a POST of one word and one of 16, and two headers and two body words that differ in unassigned bits only. -/
theorem witness_ParcelWordsCarryHeaderAndBody :
    (let h : Header :=
        { kind := 15, sender := 15, dest := 15, room := true, lo := true, hp := 15, lp := 15, high := 0xFFF };
      h.kind < 16 ∧ h.sender < 16 ∧ h.dest < 16 ∧ h.hp < 16 ∧ h.lp < 16) ∧
      readBody 0x1 (bodyWords (.post 4 [7])) = some (.post 4 [7]) ∧
      readBody 0x1 (bodyWords (.post 4 (List.replicate 16 7))) = some (.post 4 (List.replicate 16 7)) ∧
      ((0x3438BBFF : Word) &&& 0xFFFCFF00#32 = head 3 &&& 0xFFFCFF00#32 ∧ (0x3438BBFF : Word) ≠ head 3) ∧
      (0xF000E0E1 : Word) &&& assigned 9 = 0x00000001 &&& assigned 9 ∧ ∀ x ∈ answerCodes, x.1 ≠ 7 := by decide

/-! ### Answers and settlement -/

/-- The answer window of a body from station 4. -/
def asked (s : State) (b : Body) : State := s.withPhase (.answer (some (4, b)) none)

theorem witness_InboundAnswerByFirstRow :
    ((asked active (.post 0xFFC [1])).takesPart = true ∧ insideWindow active 0xFFC 1 = true ∧ insideWindow active 0x1000 1 = false) ∧
      ((asked active (.fetch 0xFC0 16 7)).takesPart = true ∧ insideWindow active 0xFC0 16 = true) ∧
      (asked contained (.signal 15)).takesPart = true ∧ (asked (station .listening .report) (.signal 0)).takesPart = true ∧
      16 ≤ (List.replicate 16 (⟨.signal 1, 5, false⟩ : InboundEntry)).length ∧ active.span.callBar = false ∧
      ({ active with span := { active.span with callBar := true } } : State).span.callBar = true := by decide

/-- A slot that waits, each way in which none does, CONTAINED, LISTENING and barred answers. -/
theorem witness_ReturnAnswerBySlot :
    ((asked (station .listening .report) (.ret 7 .readError)).takesPart = true ∧
      (asked { active with span := { active.span with callBar := true } } (.ret 7 .readError)).takesPart = true) ∧
    (let s := asked (active.setSlot 7 (slotFour .awaiting none false)) (.ret 7 (.ok [1, 2]));
      s.takesPart = true ∧ s.span.callBar = false ∧ s.span.phase = .answer (some (4, .ret 7 (.ok [1, 2]))) none ∧
        (s.slot 7).state = .awaiting ∧ (s.slot 7).dest = 4 ∧ [1, 2].length = (s.slot 7).length) ∧
      (asked active (.ret 8 .readError)).span.phase = .answer (some (4, .ret 8 .readError)) none ∧
      ((asked active (.ret 0 .readError)).slot 0).state ≠ .awaiting ∧
      ((asked (active.setSlot 7 (slotFour .awaiting none false)) (.ret 7 (.ok [1]))).slot 7).length ≠ [1].length ∧
      contained.station = .contained := by decide

/-- Nothing is held and the engine has no entry to take. -/
theorem awaiting_active_meets :
    Awaits (awaiting (active.setReach 4 (entry .reachable)) (toFour true)) [] (toFour true) [toFour false] := by decide

theorem witness_TakenEntryLeaves :
    Awaits (awaiting active (toFour true)) [] (toFour true) [toFour false] ∧ (toFour true).kind ≠ .fetch ∧
      Awaits (awaiting active (fetchFour (some 7))) [] (fetchFour (some 7)) [toFour false] ∧
      (fetchFour (some 7)).op = .fetch 0x100 2 0x200 (some 7) ∧ active.station = .active := by decide

theorem witness_FullOutsideAndStaleSettle :
    Awaits (awaiting (active.setReach 4 (entry .reachable)) (toFour true)) [] (toFour true) [toFour false] ∧
      (toFour true).fullCount + 1 < active.patience ∧
      (bookedEntry ((awaiting (active.setReach 4 (entry .reachable)) (toFour true)).reachOf 4)).state = .reachable ∧
      (let e : SendEntry := { toFour true with fullCount := 3 };
        Awaits (awaiting active e) [] e [toFour false] ∧ active.patience ≤ e.fullCount + 1) := by decide

theorem witness_RefusedAndSilenceSettle :
    (∀ silence ∈ [0, 1, 2],
        let s := awaiting (active.setReach 4 { entry .reachable with silence := silence }) (toFour true)
        Awaits s [] (toFour true) [toFour false] ∧ (s.reachOf 4).state = .reachable ∧ (s.reachOf 4).silence = silence) ∧
      active.station = .active := by decide

/-- A CONTAINED station that holds nothing but the entry in flight, with station 4 in a reach state. -/
def containedAwaiting (peer : ReachEntry) (e : SendEntry) : State :=
  { awaiting ({ contained with pending := [] }.setReach 4 peer) e with sendQueue := [e] }

/-- What CONTAINED leaves, with a peer that can fall silent at either side of the third no-reply, one that is CONTAINED and one that is not. -/
theorem witness_ContainedStationSettlesEntry :
    (Awaits (awaiting { contained with pending := [] } (toFour true)) [] (toFour true) [toFour false] ∧
        (toFour true).kind ≠ .fetch) ∧
      (Awaits (awaiting contained (fetchFour (some 0))) [] (fetchFour (some 0)) [toFour false] ∧
        (fetchFour (some 0)).kind = .fetch) ∧
      contained.station = .contained ∧
      (∀ peer ∈ [{ entry .reachable with silence := 2 }, { entry .waiting with silence := 1 }, entry .contained],
        Awaits (containedAwaiting peer (toFour true)) [] (toFour true) [] ∧
          (containedAwaiting peer (toFour true)).reachOf 4 = peer) := by decide

theorem containedAwaiting_containedHolds :
    ContainedHolds (containedAwaiting { entry .reachable with silence := 2 } (toFour true)) ∧
      ContainedHolds (containedAwaiting { entry .waiting with silence := 1 } (toFour true)) ∧
      ContainedHolds (containedAwaiting (entry .contained) (toFour true)) := by
  refine ⟨?_, ?_, ?_⟩ <;> unfold ContainedHolds <;> decide

/-- A provisional entry at the tail of a queue; a POST, a FETCH and a SIGNAL at an empty queue of an IDLE engine; and in CONTAINED. -/
theorem witness_ProvisionalEntryCommits :
    (let p : InboundEntry := { op := .post 0x40 [7], source := 4, provisional := true };
      let s : State := { active with inbound := [p], span := { active.span with phase := .answer none (some .taken) } }
      s.takesPart = true ∧ s.span.candidate = none ∧ s.station ≠ .listening ∧ (∀ t, (s.slot t).state ≠ .holding) ∧
        s.inbound = [] ++ [p] ∧ p.provisional = true ∧ s.engine = .idle ∧ ∀ k, p.op ≠ .signal k) ∧
      (∀ k, (⟨.fetch 0x40 2 7, 4, true⟩ : InboundEntry).op ≠ .signal k) ∧
      (let p : InboundEntry := { op := .signal 1, source := 5, provisional := true };
        let s : State :=
          { writing active with
            inbound := (writing active).inbound ++ [p], span := { active.span with phase := .answer none (some .taken) } }
        s.takesPart = true ∧ (∀ x ∈ (writing active).inbound, x.provisional = false) ∧ s.engine ≠ .idle) ∧
      contained.station = .contained := by decide

theorem witness_HoldingSlotIsDecided :
    (∀ held ∈ [FetchResult.ok [1, 2], .readError], ∀ deferred ∈ [true, false],
        let s := deciding active held deferred
        s.takesPart = true ∧ s.span.phase = .answer none (some .taken) ∧ s.span.candidate = none ∧ s.station = .active ∧
          s.inbound = [] ∧ (s.slot 0).state = .holding ∧ (∀ j, (s.slot j).state = .holding → j = 0) ∧
          (s.slot 0).held = some held ∧ (s.slot 0).deferred = deferred) ∧
      (deciding contained .readError false).takesPart = true ∧ (deciding contained .readError false).station = .contained := by decide

/-- Each reach state of the requester that the clauses name, at either side of the third no-reply; and a full return list with an engine that
waits for room. -/
theorem witness_ReturnIsSettled :
    (∀ st ∈ [ReachState.unknown, .reachable, .waiting, .unreachable, .contained], ∀ silence ∈ [0, 1, 2, 3],
        let s : State :=
          { awaitingReturn with reach := awaitingReturn.reach.set 4 { entry st with silence := silence } }
        AwaitsReturn s [] (retFour true) [retFour false] ∧ (s.reachOf 4).state = st ∧ (s.reachOf 4).silence = silence) ∧
      awaitingReturn.station = .active ∧ awaitingReturn.engine ≠ .roomWait ∧
      (∀ report ∈ [AnswerReport.empty, .garbled, .code 0, .code 6, .code 7], noReply report) ∧
      (let s : State :=
        { awaitingReturn with
          returns := retFour true :: List.replicate 7 (retFour false), engine := .roomWait
          inbound := [{ op := .fetch 0x40 2 6, source := 5, provisional := false }] };
        AwaitsReturn s [] (retFour true) (List.replicate 7 (retFour false)) ∧ s.engine = .roomWait ∧
          headAccess s = some (.read 0x40 2)) := by decide

/-! ### Timers and node memory -/

theorem witness_TimersExpire :
    active.held = false ∧ ((active.setReach 4 { state := .waiting, silence := 0, timer := .running 50 }).reachOf 4).state = .waiting ∧
      (active.reachOf 4).state ≠ .waiting ∧ (active.slot 7).timer = .stopped ∧
      (let f := (active.setSlot 7 (slotFour .awaiting none false)).slot 7;
        f.timer ≠ .stopped ∧ f.state = .awaiting) ∧
      (let f := (active.setSlot 7 (slotFour .holding (some .readError) false)).slot 7;
        f.timer ≠ .stopped ∧ f.state = .holding) := by decide

/-- The write of a POST head, with entries behind it and a landing that waits. -/
def writingBefore (s : State) (rest : List InboundEntry) : State :=
  { writing s with
    inbound := (writing s).inbound ++ rest
    path := { (writing s).path with landingWaiting := [(7, .write 0x200 [1])] } }

/-- The read of a FETCH head, with an entry behind it and a landing that waits. -/
def readingBefore (s : State) (rest : List InboundEntry) : State :=
  { reading s with
    inbound := (reading s).inbound ++ rest
    path := { (reading s).path with landingWaiting := [(7, .write 0x200 [1])] } }

theorem witness_AppliedPostLetsTheNextIn :
    (∀ s ∈ [active, contained],
        WritesHead (writingBefore s []) { op := .post 0x40 [7], source := 4, provisional := false } [] 0x40 [7]) ∧
      (let rest := signalEntries [(15, 5), (15, 6), (0, 11)] ++ [{ op := .fetch 0x80 16 0, source := 5, provisional := false }];
        WritesHead (writingBefore active rest) { op := .post 0x40 [7], source := 4, provisional := false } rest 0x40 [7]) ∧
      (∀ op ∈ [InboundOp.post 0x80 [8], .fetch 0x80 16 0, .signal 15],
        WritesHead (writingBefore active [{ op := op, source := 5, provisional := false }])
          { op := .post 0x40 [7], source := 4, provisional := false } [{ op := op, source := 5, provisional := false }] 0x40 [7]) ∧
      signalNext [] = false ∧ signalNext [{ op := .fetch 0x80 16 0, source := 5, provisional := false }] = false ∧
      signalNext [{ op := .signal 15, source := 5, provisional := true }] = false ∧
      active.station ≠ .contained ∧ contained.station = .contained ∧ (active.signalOf 15).pending = false ∧
      ((active.setSignal 15 { idleSignal true with pending := true, count := 255 }).signalOf 15).pending = true := by decide

theorem witness_ApplyFaultByPolicy :
    (∀ s ∈ [active, station .active .halt, contained, station .offline .report, station .offline .halt],
        WritesHead (writing s) { op := .post 0x40 [7], source := 4, provisional := false } [] 0x40 [7]) ∧
      (∀ s ∈ [active, station .offline .report],
        let rest := signalEntries [(15, 5), (0, 11)] ++ [{ op := .post 0x80 [8], source := 5, provisional := false }];
        WritesHead (writingBefore s rest) { op := .post 0x40 [7], source := 4, provisional := false } rest 0x40 [7]) ∧
      (WritesHead (writingBefore active [{ op := .post 0x80 [8], source := 5, provisional := false }])
          { op := .post 0x40 [7], source := 4, provisional := false } [{ op := .post 0x80 [8], source := 5, provisional := false }]
          0x40 [7] ∧ signalNext [{ op := .post 0x80 [8], source := 5, provisional := false }] = false) ∧
      (active.station = .active ∧ active.policy = .report ∧ active.contain.flag = false ∧ active.contain.pendingContain = none) ∧
      (run (.applyWriteEnd .error) (writing active)).contain.pendingContain.any (·.mode == .reported) = true ∧
      ((station .active .halt).policy = .halt ∧ (station .active .halt).contain.flag = false) ∧ contained.station = .contained ∧
      ((station .offline .report).policy = .report ∧ (station .offline .halt).policy = .halt) := by decide

theorem witness_ReadEndsWithAReturn :
    ReadsHead (reading active) { op := .fetch 0x40 2 6, source := 4, provisional := false } [] 0x40 2 6 ∧
      (active.reachOf 4).state ≠ .unreachable ∧ (active.reachOf 4).state ≠ .contained ∧
      ReadsHead (readingBefore contained [{ op := .post 0x80 [8], source := 5, provisional := false }])
        { op := .fetch 0x40 2 6, source := 4, provisional := false } [{ op := .post 0x80 [8], source := 5, provisional := false }]
        0x40 2 6 ∧
      (let rest := signalEntries [(15, 5), (0, 11)];
        ReadsHead (readingBefore active rest) { op := .fetch 0x40 2 6, source := 4, provisional := false } rest 0x40 2 6) ∧
      signalNext [] = false ∧
      ReadsHead (reading (active.setReach 4 (entry .unreachable))) { op := .fetch 0x40 2 6, source := 4, provisional := false } []
        0x40 2 6 ∧
      ((active.setReach 4 (entry .unreachable)).reachOf 4).state = .unreachable := by decide

theorem witness_PathServesUsersInTurn :
    (busy.held = false ∧ busy.path.state = .busy (.landing 2) (.write 0x200 [1, 2]) ∧
        busy.path.applyWaiting = some (.write 0x40 [7]) ∧ busy.path.landingWaiting = []) ∧
      ((run .restart (writing active)).path.state = .abandoned (.write 0x40 [7]) ∧ PathQuiet (run .restart (writing active))) ∧
      PathServed (run .restart (writing active))
        { run .restart (writing active) with path := { (run .restart (writing active)).path with state := .free } } ∧
      ∀ served ∈ [ServedUser.apply, .landing],
        let p : MemPath :=
          { state := .abandoned (.read 0 1), applyWaiting := some (.read 4 1), landingWaiting := [(7, .write 8 [1])]
            lastServed := served }
        p.applyWaiting = some (.read 4 1) ∧ p.landingWaiting = (7, .write 8 [1]) :: [] ∧ p.lastServed = served := by
  refine ⟨by decide, by decide, ⟨fun _ => rfl, ?_, ?_⟩, by decide⟩
  · intro a h; cases h
  · intro k a rest h; cases h

/-! ### The node port -/

/-- A POST of one word at the top of the address space, a FETCH of 16 and SIGNAL 15. -/
theorem witness_QueuedRequestIsAdmitted :
    (let s := composed active 0x00010400 0xFFFFFFFC 0 0 9;
      s.held = false ∧ field s 0 8 4 = (4 : Station).val ∧ refusal (admission s .post) = none) ∧
      refusal (admission (composed active 0x00100400 0xFFFFFFC0 0xFFFFFFC0 0 0) .fetch) = none ∧
      refusal (admission (composed active 0x0F000400 0 0 0 0) .signal) = none := by decide

/-- Each check of R170 fails at a boundary. -/
theorem witness_QueuedRequestIsRefused :
    refusal (admission (composed (State.resetWith 3) 0x00010400 0 0 0 0) .post) = some .notStarted ∧
      refusal (admission (composed contained 0x00010400 0 0 0 0) .post) = some .contained ∧
      refusal (admission (composed (station .offline .report) 0x00010400 0 0 0 0) .post) = some .offline ∧
      refusal (admission (composed active 0x00010300 0 0 0 0) .post) = some .badDest ∧
      refusal (admission (composed active 0x00010C00 0 0 0 0) .post) = some .badDest ∧
      refusal (admission (composed active 0x00110400 0 0 0 0) .post) = some .badLength ∧
      refusal (admission (composed active 0x00010400 0 2 0 0) .fetch) = some .badAddress ∧
      refusal (admission (composed active 0x10000400 0 0 0 0) .signal) = some .badSignal ∧
      refusal (admission (composed (active.setReach 4 (entry .unreachable)) 0x400 0 0 0 0) .signal) = some .destUnreachable ∧
      refusal (admission (composed (active.setReach 4 (entry .contained)) 0x400 0 0 0 0) .signal) = some .destContained ∧
      refusal (admission (composed { active with sendQueue := List.replicate 32 (toFour false) } 0x400 0 0 0 0) .signal) =
        some .queueFull ∧
      refusal (admission (composed { active with completions := List.replicate 40 (.request 0 .post 4 .done) } 0x400 0 0 0 0)
        .signal) = some .budgetExhausted := by decide

/-- An accepted START, and each of its refusals. -/
theorem witness_StartIsJudgedInOrder :
    startRequest.held = false ∧ (run .start startRequest).port.result = .accepted ∧
      (run .start active).port.result = .alreadyStarted ∧
      (run .start (composed (State.resetWith 12) 0x8 0x3 0x1000 1 0)).port.result = .badStrap ∧
      (run .start (composed (State.resetWith 3) 0x8 0x40 0x1000 1 0)).port.result = .badCode ∧
      (run .start (composed (State.resetWith 3) 0x8 0 0xFFFFF000 2 0)).port.result = .badWindow ∧
      (run .start (composed (State.resetWith 3) 0x8 0 0xFFFFF000 1 0)).port.result = .accepted := by decide

theorem witness_RestartRestartsEveryBlock :
    (State.resetWith 3).held = false ∧ (State.resetWith 3).station = .unstarted ∧ busy.held = false ∧ busy.station ≠ .unstarted ∧
      busy.path.state = .busy (.landing 2) (.write 0x200 [1, 2]) ∧ active.path.state = .free := by decide

theorem witness_ImmediateRequestsAnswer :
    ((State.resetWith 3).held = false ∧ (State.resetWith 3).station = .unstarted) ∧ Takes active ∧ Takes contained ∧
      contained.station = .contained ∧
      field (composed active 0x1000000B 0 0 0 0) 0 24 5 = 16 ∧ field (composed active 0x0F00000B 0 0 0 0) 0 24 5 = (15 : SignalNo).val ∧
      (active.signalOf 15).pending = false ∧ ((busy.signalOf 4).pending = true ∧ (busy.signalOf 4).notice = .unread) ∧
      (let e : SignalEntry := { pending := true, enabled := true, count := 3, first := some 9, notice := .read };
        e.pending = true ∧ e.notice ≠ .unread ∧ e.first = some 9) ∧
      contained.contain.log[(composed contained 0xC 3 0 0 0).port.header[1].toNat]?.isSome = true ∧
      contained.contain.log.length ≤ (composed contained 0xC 4 0 0 0).port.header[1].toNat ∧
      field (composed active 0xE 12 0 0 0) 1 0 4 = 12 ∧ field (composed active 0xE 11 0 0 0) 1 0 4 = (11 : Station).val := by decide

theorem witness_TakePopsTheOldestRecord :
    (active.completions = [] ∧ (run .hardwareResetAssert busy).held = true) ∧
      (busy.held = false ∧ busy.completions = .signal 4 9 :: [.request 0x0303 .post 4 .done, .station .spanUnsteady 1 8] ∧
        (busy.signalOf 4).notice = .unread) ∧
      (Completion.request 0x0303 .post 4 .done).isRequest = true ∧
      (run .take { active with completions := [.station .peerHalted 255 11] }).port.view = #v[0x00FF0023, 11, 0, 0] := by decide

/-- The first and last words of the request area, SUBMIT, and the words behind it. -/
theorem witness_WindowWordsTakeWrites :
    active.held = false ∧ (0x00#8).toNat % 4 = 0 ∧ (0x4C#8).toNat < 0x50 ∧ (0x50#8).toNat % 4 = 0 ∧ 0x50 < (0x54#8).toNat ∧
      (0x54#8).toNat % 4 = 0 := by decide

theorem witness_NoticesCoalesceInPlace :
    (∀ c ∈ [Completion.signal 4 9] ++ [.station .peerHalted 255 3], c.isNotice .localFault = false) ∧
      (∀ k, (Completion.signal 4 9).isNotice k = false) ∧
      push [.signal 4 9, .station .localFault 255 2, .station .peerHalted 1 3] (.station .localFault 1 7) =
        [.signal 4 9, .station .localFault 255 7, .station .peerHalted 1 3] :=
  ⟨by decide, fun _ => rfl, by decide⟩

end Sys2Proof.Tests
end

section
/-! The owner of a round (02 section 2.3): a search answers the first member, and the grant is a search of one class of callers. -/

namespace Sys2Proof.TurnOrder

open Sys2Proof.Machine Sys2Proof.Claims

/-! ## Sets of stations -/

/-- A set that is not empty has a member. -/
theorem exists_has_of_ne_zero {set : StationSet} (h : set ≠ 0) : ∃ n, StationSet.has set n = true := by
  by_contra hnone
  refine h (BitVec.eq_of_getLsbD_eq fun i hi => ?_)
  have hbit : set.getLsbD i ≠ true := fun hi' => hnone ⟨⟨i, hi⟩, hi'⟩
  simpa using hbit

theorem not_has_zero (n : Station) : ¬ StationSet.has 0 n = true := by simp [StationSet.has]

theorem has_and (a b : StationSet) (n : Station) :
    StationSet.has (a &&& b) n = (StationSet.has a n && StationSet.has b n) := BitVec.getLsbD_and

theorem has_not (a : StationSet) (n : Station) : StationSet.has (~~~a) n = !StationSet.has a n := by
  simp [StationSet.has]

/-- A member of a part of a set is a member of the set. -/
theorem has_of_has_and {set part : StationSet} {n : Station} (h : StationSet.has (set &&& part) n = true) :
    StationSet.has set n = true := by
  rw [has_and, Bool.and_eq_true] at h
  exact h.1

/-- Every caller is HIGH or LOW in the class map (02 section 2.1): callers none of whom is HIGH include a LOW one. -/
theorem lows_ne_zero_of_highs_eq_zero {picture high : StationSet} (hp : picture ≠ 0) (hh : picture &&& high = 0) :
    picture &&& ~~~high ≠ 0 := by
  obtain ⟨n, hn⟩ := exists_has_of_ne_zero hp
  intro hl
  cases hclass : StationSet.has high n with
  | true => exact not_has_zero n (by rw [← hh, has_and, hn, hclass, Bool.and_self])
  | false => exact not_has_zero n (by rw [← hl, has_and, has_not, hn, hclass]; rfl)

/-! ## The search -/

/-- A search has one first member: two members at the same distance from its start are the same station. -/
theorem FirstFrom.unique {k n m : Station} {set : StationSet} (hn : FirstFrom k set n) (hm : FirstFrom k set m) : n = m :=
  sub_left_injective (Fin.ext (le_antisymm (hn.2 m hm.1) (hm.2 n hn.1)))

/-- The search answers exactly the member that comes first from its start (02 section 2.1). -/
theorem search_eq_some_iff (k : Station) (set : StationSet) (n : Station) : search k set = some n ↔ FirstFrom k set n := by
  constructor
  · exact search_some k set n
  · intro hn
    obtain ⟨m, hm⟩ := Option.isSome_iff_exists.mp (search_isSome k set n hn.1)
    rw [hm, FirstFrom.unique hn (search_some k set m hm)]

/-! ## The grant -/

/-- The callers the grant searches are part of the picture, and there are some where the picture is not empty (R24, R25). -/
theorem grant_eq_search (r : TurnRecord) (picture : StationSet) :
    ∃ k set, grant r picture = search k set ∧ (∀ n, StationSet.has set n = true → StationSet.has picture n = true) ∧
      (picture ≠ 0 → set ≠ 0) := by
  unfold grant
  split
  · exact ⟨0, picture, rfl, fun _ h => h, id⟩
  split
  case isTrue howed =>
    simp only [Bool.and_eq_true, bne_iff_ne] at howed
    exact ⟨_, _, rfl, fun _ => has_of_has_and, fun _ => howed.2⟩
  split
  case isTrue hhigh => exact ⟨_, _, rfl, fun _ => has_of_has_and, fun _ => bne_iff_ne.mp hhigh⟩
  case isFalse hhigh =>
    exact ⟨_, _, rfl, fun _ => has_of_has_and, fun hp => lows_ne_zero_of_highs_eq_zero hp (by simpa using hhigh)⟩

/-- The owner is the first member of the class that the case of R24 or R25 searches. -/
theorem grant_eq_some_iff (r : TurnRecord) (picture : StationSet) (o : Station) :
    grant r picture = some o ↔
      if r.settle then FirstFrom 0 picture o
      else if r.stamp.lo ∧ picture &&& ~~~r.stamp.high ≠ 0 then FirstFrom (r.stamp.lp + 1) (picture &&& ~~~r.stamp.high) o
      else if picture &&& r.stamp.high ≠ 0 then FirstFrom (r.stamp.hp + 1) (picture &&& r.stamp.high) o
      else FirstFrom (r.stamp.lp + 1) (picture &&& ~~~r.stamp.high) o := by
  simp only [← search_eq_some_iff, grant, Bool.and_eq_true, bne_iff_ne]
  split_ifs <;> rfl

/-- The owner is a caller (R26). -/
theorem has_of_grant_eq_some {r : TurnRecord} {picture : StationSet} {o : Station} (h : grant r picture = some o) :
    StationSet.has picture o = true := by
  obtain ⟨k, set, hsearch, hsub, -⟩ := grant_eq_search r picture
  exact hsub o (search_some k set o (hsearch ▸ h)).1

/-- A picture that is not empty has an owner (R26). -/
theorem grant_isSome {r : TurnRecord} {picture : StationSet} (h : picture ≠ 0) : (grant r picture).isSome = true := by
  obtain ⟨k, set, hsearch, -, hne⟩ := grant_eq_search r picture
  obtain ⟨m, hm⟩ := exists_has_of_ne_zero (hne h)
  rw [hsearch]
  exact search_isSome k set m hm

/-- Settles O22: the owner case by case from `grant_eq_some_iff`; that it is a caller, and that there is one, from the class searched. -/
theorem grantFollowsCases : Obligations.GrantFollowsCases :=
  fun r picture o => ⟨grant_eq_some_iff r picture o, has_of_grant_eq_some, grant_isSome⟩

end Sys2Proof.TurnOrder
end

section
/-! The answer window (01 section 1.6) and the answer to a RETURN in it (05 section 5.4). -/

namespace Sys2Proof.AnswerWindow

open Sys2Proof.Machine

/-! ## Who answers -/

/-- Of the stations that take part in rounds, those in LISTENING and those whose answers are barred stay silent when asked (R12, R20). -/
theorem answers_iff {s : State} (hpart : s.takesPart = true) :
    s.answers = true ↔ s.station ≠ .listening ∧ s.span.callBar = false := by
  cases hst : s.station <;> simp [State.answers, State.takesPart, hst] at hpart ⊢

/-- A station asked for an answer drives the code of the consuming block, and keeps what that block holds for it (R12). -/
theorem exec_answerWindow_drives {s s' : State} {n : Station} {b : Body} {driven : Option AnswerCode} {code : AnswerCode}
    (hpart : s.takesPart = true) (hphase : s.span.phase = .answer (some (n, b)) driven)
    (hlistening : s.station ≠ .listening) (hbar : s.span.callBar = false) (hanswer : s.answerFor n b = some (code, s')) :
    exec .answerWindow s = .next (s'.withPhase (.answer none (some code))) := by
  have hanswers : s.answers = true := (answers_iff hpart).mpr ⟨hlistening, hbar⟩
  change execAnswerWindow s = _
  simp [execAnswerWindow, hpart, hphase, hanswers, hanswer]

/-- A station in LISTENING, or one whose answers are barred, drives nothing, and no block is asked (R12, R20). -/
theorem exec_answerWindow_silent {s : State} {n : Station} {b : Body} {driven : Option AnswerCode}
    (hpart : s.takesPart = true) (hphase : s.span.phase = .answer (some (n, b)) driven)
    (hsilent : s.station = .listening ∨ s.span.callBar = true) :
    exec .answerWindow s = .next (s.withPhase (.answer none none)) := by
  have hanswers : s.answers = false := by
    rw [Bool.eq_false_iff, Ne, answers_iff hpart]
    rintro ⟨hlistening, hbar⟩
    exact hsilent.elim hlistening (by simp [hbar])
  change execAnswerWindow s = _
  simp [execAnswerWindow, hpart, hphase, hanswers]

/-! ## The slot a RETURN's tag names -/

/-- An OK result fits a slot by the number of its data words, a READ_ERROR fits every slot (R79). -/
theorem fits_iff (r : FetchResult) (length : Nat) : r.fits length = true ↔ ∀ data, r = .ok data → data.length = length := by
  cases r <;> simp [FetchResult.fits]

/-- The conditions of R79 on the slot. -/
theorem slotTakes_iff (s : State) (k : SlotNo) (n : Station) (r : FetchResult) :
    s.slotTakes k n r = true ↔
      (s.slot k).state = .awaiting ∧ (s.slot k).dest = n ∧ ∀ data, r = .ok data → data.length = (s.slot k).length := by
  simp [State.slotTakes, fits_iff, and_assoc]

/-- The answer to a RETURN whose tag names a slot is decided by CONTAINED and the conditions of R79 on the slot. -/
theorem answerReturn_of_slot {k : SlotNo} {tag : Fin 16} (hk : k.val = tag.val) (s : State) (n : Station) (r : FetchResult) :
    s.answerReturn n tag r =
      if s.station ≠ .contained ∧ s.slotTakes k n r = true then
        (.taken, s.setSlot k { s.slot k with state := .holding, held := some r })
      else (.stale, s) := by
  have htag : tag.val < 8 := hk ▸ k.isLt
  have hslot : (⟨tag.val, htag⟩ : SlotNo) = k := Fin.ext hk.symm
  simp [State.answerReturn, htag, hslot]

/-- A RETURN whose tag names no slot changes no slot (R80). -/
theorem answerReturn_of_no_slot {tag : Fin 16} (htag : 8 ≤ tag.val) (s : State) (n : Station) (r : FetchResult) :
    s.answerReturn n tag r = (.stale, s) := dif_neg htag.not_gt

/-- A station in CONTAINED answers every RETURN STALE (R79, R80). -/
theorem answerReturn_contained {s : State} (h : s.station = .contained) (n : Station) (tag : Fin 16) (r : FetchResult) :
    s.answerReturn n tag r = (.stale, s) := by
  rcases Nat.lt_or_ge tag.val 8 with htag | htag
  · simp [answerReturn_of_slot (k := ⟨tag.val, htag⟩) rfl, h]
  · exact answerReturn_of_no_slot htag s n r

/-- Settles O40: who answers from `answers_iff`; TAKEN and STALE from what the fetch table answers, condition by condition. -/
theorem returnAnswerBySlot : Obligations.ReturnAnswerBySlot := by
  intro s n tag result driven hpart hphase
  refine ⟨exec_answerWindow_silent hpart hphase, ?taken, ?stale⟩
  case taken =>
    intro hbar k hk hactive hawaiting hdest hfits
    have htakes : s.slotTakes k n result = true := (slotTakes_iff s k n result).mpr ⟨hawaiting, hdest, hfits⟩
    have hanswer := (answerReturn_of_slot hk s n result).trans (if_pos ⟨by simp [hactive], htakes⟩)
    exact exec_answerWindow_drives hpart hphase (by simp [hactive]) hbar (congrArg some hanswer)
  case stale =>
    intro hlistening hbar hno
    have hanswer : s.answerReturn n tag result = (.stale, s) := by
      rcases hno with hcontained | htag | ⟨k, hk, hslot⟩
      · exact answerReturn_contained hcontained n tag result
      · exact answerReturn_of_no_slot htag s n result
      · refine (answerReturn_of_slot hk s n result).trans (if_neg ?_)
        rw [slotTakes_iff]
        rintro ⟨-, hawaiting, hdest, hfits⟩
        rcases hslot with h | h | ⟨data, hok, hlength⟩
        · exact h hawaiting
        · exact h hdest
        · exact hlength (hfits data hok)
    exact exec_answerWindow_drives hpart hphase hlistening hbar (congrArg some hanswer)

end Sys2Proof.AnswerWindow
end

section
/-! The answer to a POST, FETCH or SIGNAL in the answer window (06 sections 6.2 and 6.3). -/

namespace Sys2Proof.Acceptance

open Sys2Proof.Machine Sys2Proof.AnswerWindow

/-! ## The rows of the answer table -/

/-- The window test of the inbound queue asks what R96 asks of a range; without a configuration no range passes. -/
theorem windowTest_eq_insideWindow (s : State) (addr : Word) (length : Nat) :
    s.windowTest addr length = Claims.insideWindow s addr length := by
  unfold State.windowTest Claims.insideWindow
  cases s.config with
  | none => rfl
  | some c => rfl

/-- The queue has no free place where 16 entries are held, a provisional one included (R94). -/
theorem freePlaces_eq_zero_iff (s : State) : s.freePlaces = 0 ↔ 16 ≤ s.inbound.length := Nat.sub_eq_zero_iff_le

/-! ## What the inbound queue is asked, and what it does -/

/-- The parcels the inbound queue consumes, each with the operation of its entry (TABLE 6-1). -/
theorem inbound?_eq_some_iff (b : Body) (op : InboundOp) :
    b.inbound? = some op ↔
      (∃ addr data, b = .post addr data ∧ op = .post addr data) ∨
        (∃ addr length tag, b = .fetch addr length tag ∧ op = .fetch addr length tag) ∨ ∃ k, b = .signal k ∧ op = .signal k := by
  cases b <;> simp [Body.inbound?, eq_comm]

/-- A parcel that the inbound queue consumes is answered by the inbound queue (R12). -/
theorem answerFor_of_inbound? {b : Body} {op : InboundOp} (h : b.inbound? = some op) (s : State) (n : Station) :
    s.answerFor n b = some (s.answerInbound n op) := by
  obtain ⟨addr, data, rfl, rfl⟩ | ⟨addr, length, tag, rfl, rfl⟩ | ⟨k, rfl, rfl⟩ := (inbound?_eq_some_iff b op).mp h <;> rfl

/-- Giving an answer changes the queue alone, and that by a provisional entry exactly when the answer is TAKEN (R95, R97). -/
theorem answerInbound_eq (s : State) (n : Station) (op : InboundOp) :
    s.answerInbound n op =
      (s.inboundAnswer op,
        { s with
          inbound :=
            if s.inboundAnswer op = .taken then s.inbound ++ [{ op := op, source := n, provisional := true }] else s.inbound }) := by
  unfold State.answerInbound
  split <;> rfl

/-- Settles O39: who answers from `answers_iff`; the code row by row from the window test and the count of free places; the entry from
`answerInbound_eq`. -/
theorem inboundAnswerByFirstRow : Obligations.InboundAnswerByFirstRow := by
  intro s n b op driven hpart hphase hbody inside code
  have hinside : s.insideWindow op = inside := by
    cases op with
    | post addr data => exact windowTest_eq_insideWindow s addr data.length
    | fetch addr length tag => exact windowTest_eq_insideWindow s addr length
    | signal k => rfl
  have hcode : s.inboundAnswer op = code := by
    simp only [State.inboundAnswer, hinside, freePlaces_eq_zero_iff, Bool.not_eq_true', code]
  have hanswer := answerFor_of_inbound? ((inbound?_eq_some_iff b op).mpr hbody) s n
  rw [answerInbound_eq, hcode] at hanswer
  exact ⟨fun hlistening hbar => exec_answerWindow_drives hpart hphase hlistening hbar hanswer,
    exec_answerWindow_silent hpart hphase⟩

end Sys2Proof.Acceptance
end

section
/-! The judgement of a START (09 section 9.2): the first check of R154 that fails refuses it, else its configuration is taken (R155, R126). -/

namespace Sys2Proof.Joining

open Sys2Proof.Machine Sys2Proof.Claims

/-! ## The first failing check -/

theorem refusal_nil : refusal [] = none := rfl

/-- A check that fails decides the request; one that passes leaves it to the checks behind it. -/
theorem refusal_cons (fails : Bool) (r : Result) (rest : List (Bool × Result)) :
    refusal ((fails, r) :: rest) = if fails then some r else refusal rest := by
  cases fails <;> rfl

/-! ## Fields kept in their width -/

theorem toNat_ofNat_bits (w : Word) (lo len : Nat) : (BitVec.ofNat len (bits w lo len)).toNat = bits w lo len :=
  (BitVec.toNat_ofNat ..).trans (Nat.mod_mod _ _)

/-- The bits of a field that begins at bit 0 are the bits of its word. -/
theorem getLsbD_ofNat_bits (w : Word) {len i : Nat} (hi : i < len) : (BitVec.ofNat len (bits w 0 len)).getLsbD i = bit w i := by
  rw [BitVec.getLsbD, toNat_ofNat_bits, bits, Nat.testBit_mod_two_pow, Nat.testBit_eq_decide_div_mod_eq]
  simp [hi, bit, bits, beq_eq_decide]

/-! ## The configuration in the request area -/

/-- The request area holds a configuration unless one of its timing codes is none of 0 to 3 (R59). -/
theorem startConfig_isNone (s : State) :
    s.port.startConfig.isNone =
      (decide (4 ≤ field s 1 4 3) || decide (4 ≤ field s 1 8 3) || decide (4 ≤ field s 1 12 3)) := by
  rw [Bool.eq_iff_iff, Option.isNone_iff_eq_none, NodePort.startConfig, dite_eq_right_iff]
  simp only [reduceCtorEq, imp_false, not_and_or, not_lt, Bool.or_eq_true, decide_eq_true_eq, or_assoc]
  rfl

/-- Each part of the configuration from its bits of the request area (TABLE 11-7). -/
theorem startConfig_fields {s : State} {c : StationConfig} (h : s.port.startConfig = some c) :
    c.cls = (if field s 1 0 1 = 1 then .high else .low) ∧ c.policy = (if field s 1 1 1 = 1 then .halt else .report) ∧
      c.patience.val = field s 1 4 3 ∧ c.retry.val = field s 1 8 3 ∧ c.timeout.val = field s 1 12 3 ∧
      c.windowBase = s.port.header[2] ∧ c.windowPages.toNat = field s 3 0 16 ∧ c.signalMask = s.port.mask := by
  unfold NodePort.startConfig at h
  split at h
  · obtain rfl := Option.some.inj h
    exact ⟨if_congr beq_iff_eq rfl rfl, if_congr beq_iff_eq rfl rfl, rfl, rfl, rfl, rfl, toNat_ofNat_bits .., rfl⟩
  · cases h

/-- The window of the configuration in the request area fails R93 by its base or by its end. -/
theorem not_windowFits {s : State} {c : StationConfig} (h : s.port.startConfig = some c) :
    (!windowFits c) =
      (decide (s.port.header[2].toNat % 4096 ≠ 0) || decide (2 ^ 32 < s.port.header[2].toNat + 4096 * field s 3 0 16)) := by
  obtain ⟨-, -, -, -, -, hbase, hpages, -⟩ := startConfig_fields h
  rw [Bool.eq_iff_iff]
  simp [windowFits, hbase, hpages, Config.pageBytes, Config.addressSpace]

/-! ## The judgement -/

/-- The checks of R154 in their order, each with the result of its failure. -/
def startChecks (s : State) : List (Bool × Result) :=
  [(s.station != .unstarted, .alreadyStarted), (decide (12 ≤ s.strap.toNat), .badStrap),
    (decide (4 ≤ field s 1 4 3) || decide (4 ≤ field s 1 8 3) || decide (4 ≤ field s 1 12 3), .badCode),
    (decide (s.port.header[2].toNat % 4096 ≠ 0) || decide (2 ^ 32 < s.port.header[2].toNat + 4096 * field s 3 0 16), .badWindow)]

/-- A START answers the first check that fails, or takes the configuration the request area holds (R154, R155). -/
theorem submitStart_cases (s : State) :
    (∃ r, refusal (startChecks s) = some r ∧ s.submitStart = s.answer r) ∨
      refusal (startChecks s) = none ∧ ∃ c, s.port.startConfig = some c ∧ s.submitStart = s.takeConfig c := by
  simp only [startChecks, ← startConfig_isNone, refusal_cons, refusal_nil, bne_iff_ne, decide_eq_true_eq, State.submitStart]
  by_cases hstation : s.station ≠ .unstarted
  · simp [hstation]
  by_cases hstrap : 12 ≤ s.strap.toNat
  · simp [hstation, hstrap]
  cases hconfig : s.port.startConfig with
  | none => simp [hstation, hstrap]
  | some c =>
    rw [← not_windowFits hconfig]
    cases hfits : windowFits c <;> simp [hstation, hstrap, hfits]

/-- A station that is not held in reset judges a START (R151). -/
theorem exec_start {s : State} (hheld : s.held = false) : exec .start s = .next s.submitStart := by
  change execStart s = _
  simp [execStart, State.submission, hheld]

/-! ## What an accepted START takes -/

/-- The enables are those of the initial mask, and nothing else of a signal entry changes (R126). -/
theorem takeConfig_signalOf {s : State} {c : StationConfig} (h : s.port.startConfig = some c) (k : SignalNo) :
    (s.takeConfig c).signalOf k = { s.signalOf k with enabled := bit s.port.data[0] k.val } := by
  obtain ⟨-, -, -, -, -, -, -, hmask⟩ := startConfig_fields h
  have henable : s.port.mask.getLsbD k.val = bit s.port.data[0] k.val := getLsbD_ofNat_bits _ k.isLt
  simpa [State.takeConfig, State.signalOf, hmask] using henable

/-- Settles O55: the first failing check or the configuration from `submitStart_cases`, what the configuration is from
`startConfig_fields`, and the enables from `takeConfig_signalOf`. -/
theorem startIsJudgedInOrder : Obligations.StartIsJudgedInOrder := by
  intro s hheld base pages checks
  rw [exec_start hheld]
  obtain ⟨r, hrefused, hsubmit⟩ | ⟨hpassed, c, hconfig, hsubmit⟩ := submitStart_cases s
  · refine ⟨fun r' hr' => ?_, fun hnone => absurd (hrefused.symm.trans hnone) (Option.some_ne_none r)⟩
    obtain rfl : r = r' := Option.some.inj (hrefused.symm.trans hr')
    exact congrArg _ hsubmit
  · refine ⟨fun r hr => absurd (hr.symm.trans hpassed) (Option.some_ne_none r), fun _ => ?_⟩
    obtain ⟨hcls, hpolicy, hpatience, hretry, htimeout, hbase, hpages, hmask⟩ := startConfig_fields hconfig
    have hmaskBits : c.signalMask.toNat = bits s.port.data[0] 0 16 := hmask ▸ toNat_ofNat_bits ..
    exact ⟨s.takeConfig c, c, congrArg _ hsubmit, rfl, rfl, takeConfig_signalOf hconfig, hcls, hpolicy, hpatience, hretry,
      htimeout, hbase, hpages, hmaskBits⟩

end Sys2Proof.Joining
end

section
/-! A station notice handed on (10, R178): the unread notice of its kind is the one record that changes, and it changes in its place. -/

namespace Sys2Proof.NodePort

open Sys2Proof.Machine Sys2Proof.Claims

/-! ## One record of the queue -/

/-- A record that is no notice of the kind handed on stays as it is. -/
theorem coalesce_of_not_isNotice {k : NoticeKind} (arg : Nat) {c : Completion} (h : c.isNotice k = false) :
    coalesce k arg c = c := by
  cases c with
  | station k' n a =>
    have hkind : k' ≠ k := by simpa [Completion.isNotice] using h
    simp [coalesce, hkind]
  | _ => rfl

@[simp] theorem coalesce_station_self (k : NoticeKind) (n old arg : Nat) :
    coalesce k arg (.station k n old) = .station k (bump n) arg := by
  simp [coalesce]

/-! ## The whole queue -/

/-- Records of other kinds keep their places and their content. -/
theorem map_coalesce_of_not_isNotice {k : NoticeKind} (arg : Nat) {q : List Completion} (h : ∀ c ∈ q, c.isNotice k = false) :
    q.map (coalesce k arg) = q := by
  simpa using List.map_congr_left fun c hc => coalesce_of_not_isNotice arg (h c hc)

/-- The unread notice of the kind takes the occurrence in its place (R178). -/
theorem push_notice_in_place {k : NoticeKind} {before after : List Completion} (n arg old count : Nat)
    (h : ∀ c ∈ before ++ after, c.isNotice k = false) :
    push (before ++ .station k count old :: after) (.station k n arg) = before ++ .station k (bump count) arg :: after := by
  obtain ⟨hbefore, hafter⟩ := List.forall_mem_append.mp h
  rw [push_notice_again _ _ _ _ (by simp [Completion.isNotice]), List.map_append, List.map_cons, coalesce_station_self,
    map_coalesce_of_not_isNotice arg hbefore, map_coalesce_of_not_isNotice arg hafter]

/-- Settles O60: an unread notice takes the occurrence in its place by `push_notice_in_place`, and without one, as for every other
record, the tail is joined by `push_notice_new` and `push_of_not_notice`. -/
theorem noticesCoalesceInPlace : Obligations.NoticesCoalesceInPlace := by
  refine ⟨fun k arg old count before after h => push_notice_in_place 1 arg old count h, fun k arg queue h => ?_,
    fun c queue h => push_of_not_notice queue c h⟩
  have hnone : queue.any (Completion.isNotice k) = false := by simpa using h
  exact push_notice_new queue k 1 arg hnone

end Sys2Proof.NodePort
end

section
/-! What a command can do: one case for each effect a command has, with the conditions under which it has it. Every statement about all
commands is proved from these cases (R2 to R14, R66, R84 to R86, R98 to R101, R114, R121 to R123, R147, R151, R154, R163, R166 to R171, R179). -/

namespace Sys2Proof.Events

open Sys2Proof.Machine Sys2Proof.Claims

/-! ## The cases -/

/-- The station waits for the outcome of a round with callers: `sent` is what it transmits in it, `settle` the settle flag at call close (R6, R8). -/
def Hears (s : State) (settle : Bool) (sent : Option ParcelWords) : Prop :=
  (∃ picture, picture ≠ 0 ∧ s.span.phase = .closed picture false settle ∧ sent = none) ∨ s.span.phase = .parcel settle sent

/-- What an answer close makes of the state: the sender's part, the addressed station's part and the end of the round (R11 to R14). -/
def closing (s : State) (o : AnswerOutcome) : Effect :=
  ((s.settleCandidate o).andThen fun s' => s'.settleHolder (o == .good .taken)).andThen fun s' => quiet s'.endRound.countRound

/-- The station at the assertion of the reset pin (R151). -/
def asserted (s : State) : State :=
  { s.releaseInFlight.releaseReturn.endRound with
    held := true
    engine := .idle
    path := if s.held then s.path else s.path.abandon }

/-- The station at the release of the reset pin (R151, R152). -/
def released (s : State) (straps : BitVec 4) : State :=
  { State.resetWith straps with
    path := { s.path.abandon with lastServed := .landing }
    choices := s.choices
    pending := s.pending }

/-- What command `c` can do at station `s`. -/
inductive Happens (s : State) (c : Instr) : State → Prop
  /-- The event has no effect in this state. -/
  | nothing : Happens s c s
  | asserts : c = .hardwareResetAssert → Happens s c (asserted s)
  | releases (straps : BitVec 4) : c = .hardwareResetRelease straps → Happens s c (released s straps)
  | marks : s.takesPart = true → s.span.phase = .none → Happens s c (s.freeze s.offer)
  | owns (picture : StationSet) : s.takesPart = true → s.span.phase = .calling → s.ownsRound picture = true →
      Happens s c (s.withPhase (.closed picture true s.turn.settle))
  | yields (picture : StationSet) : s.takesPart = true → s.span.phase = .calling → s.ownsRound picture = false →
      Happens s c (s.withPhase (.closed picture false s.turn.settle)).releaseCandidate.done
  | opens (picture : StationSet) (owned settle : Bool) : s.takesPart = true → s.span.phase = .closed picture owned settle → picture ≠ 0 →
      Happens s c (s.withPhase (.parcel settle (if owned then s.span.candidate.map s.transmission else none)))
  | idles (owned settle : Bool) : s.takesPart = true → s.span.phase = .closed 0 owned settle → Happens s c s.endRound.countRound
  | outcome (settle : Bool) (sent : Option ParcelWords) (report : LineReport) : isOutcome c = true → s.takesPart = true →
      Hears s settle sent → Happens s c (s.parcelOutcome settle sent report).done
  | silent (asked : Station × Body) (driven : Option AnswerCode) : s.takesPart = true → s.span.phase = .answer (some asked) driven →
      Happens s c (s.withPhase (.answer none none))
  | declines (asked : Station × Body) (driven : Option AnswerCode) (code : AnswerCode) : s.takesPart = true →
      s.span.phase = .answer (some asked) driven → s.answers = true → code ≠ .taken →
      Happens s c (s.withPhase (.answer none (some code)))
  | takesReturn (asked : Station × Body) (driven : Option AnswerCode) (k : SlotNo) (result : FetchResult) : s.takesPart = true →
      s.span.phase = .answer (some asked) driven → s.answers = true → s.station ≠ .contained → (s.slot k).state = .awaiting →
      Happens s c ((s.setSlot k { s.slot k with state := .holding, held := some result }).withPhase (.answer none (some .taken)))
  | takesEntry (asked : Station × Body) (driven : Option AnswerCode) (e : InboundEntry) : s.takesPart = true →
      s.span.phase = .answer (some asked) driven → s.answers = true → s.station ≠ .contained → s.inbound.length < 16 →
      e.provisional = true →
      Happens s c ({ s with inbound := s.inbound ++ [e] }.withPhase (.answer none (some .taken)))
  | closes (ask : Option (Station × Body)) (driven : Option AnswerCode) (o : AnswerOutcome) : s.takesPart = true →
      s.span.phase = .answer ask driven → (ask.isSome && s.answers) = false → Happens s c (closing s o).done
  | retries (d : Station) : s.held = false → (s.reachOf d).state = .waiting →
      Happens s c (s.setReach d { s.reachOf d with state := .reachable, timer := .stopped })
  | expires (t : SlotNo) : s.held = false → Happens s c (s.expireFetch t).done
  | writes (e : InboundEntry) (rest : List InboundEntry) (a : Access) (ending : AccessEnd) : s.held = false →
      s.path.state = .busy .apply a → Safety.isRead a = false → s.inbound = e :: rest →
      Happens s c (s.pathFallsFree.postEnds e ending).done
  | reads (e : InboundEntry) (rest : List InboundEntry) (a : Access) (ending : ReadEnd) : s.held = false →
      s.path.state = .busy .apply a → Safety.isRead a = true → s.inbound = e :: rest →
      Happens s c (s.pathFallsFree.fetchEnds e ending).done
  | lands (t : SlotNo) (a : Access) (status : Status) : s.held = false → s.path.state = .busy (.landing t) a →
      Happens s c (s.pathFallsFree.endFetch t status).done
  | frees (a : Access) : s.path.state = .abandoned a → Happens s c s.pathFallsFree
  /-- The port alone: a refusal, a value shown, a word written, a TAKE that pops nothing. -/
  | port (p : NodePort) : Happens s c { s with port := p }
  | queues (k : RequestKind) (d : Station) (p : NodePort) : s.held = false → s.refusedState = none → s.destination = some d →
      s.port.fieldCheck k = none → s.roomCheck d = none →
      Happens s c { s with sendQueue := s.sendQueue ++ [s.port.entry k d], port := p }
  | joins (config : StationConfig) : starts c s = true → s.held = false → s.station = .unstarted → s.strap.toNat < 12 →
      Happens s c (s.takeConfig config)
  | restarts (p : NodePort) : Claims.restarts c s = true → s.held = false → s.station ≠ .unstarted →
      Happens s c { s.restarted with port := p }
  | masks (mask : BitVec 16) (p : NodePort) : s.held = false → s.station ≠ .unstarted →
      Happens s c { (s.applyMask mask).done with port := p }
  | acknowledges (n : SignalNo) (p : NodePort) : s.held = false → s.station ≠ .unstarted → (s.signalOf n).notice ≠ .unread →
      Happens s c { s.setSignal n (idleSignal (s.signalOf n).enabled) with port := p }
  | clears (p : NodePort) : Claims.clears c s = true → s.held = false → s.station ≠ .unstarted → s.station ≠ .contained →
      Happens s c { s with contain := { s.contain with log := [], overflow := 0 }, port := p }
  | pops (record : Completion) (rest : List Completion) (p : NodePort) : s.held = false → s.completions = record :: rest →
      Happens s c { { s with completions := rest }.readingOf record with port := p }

/-! ## Submissions -/

variable {s : State} {c : Instr}

theorem submitQueued_happens (k : RequestKind) (hheld : s.held = false) : Happens s c (s.submitQueued k) := by
  unfold State.submitQueued
  split
  · exact .port _
  split
  · exact .port _
  split
  · exact .port _
  split
  · exact .port _
  · exact .queues k _ _ hheld ‹_› ‹_› ‹_› ‹_›

theorem submitStart_happens (hc : starts c s = true) (hheld : s.held = false) : Happens s c s.submitStart := by
  unfold State.submitStart
  split
  · exact .port _
  split
  · exact .port _
  split
  · exact .port _
  split
  · exact .joins _ hc hheld (not_not.mp ‹_›) (Nat.lt_of_not_le ‹_›)
  · exact .port _

/-- A started station takes an immediate request; an unstarted one refuses it (R153, R173). -/
theorem whenStarted_happens {f : State → State} (h : s.station ≠ .unstarted → Happens s c (f s)) :
    Happens s c (s.whenStarted f) := by
  unfold State.whenStarted
  split
  · exact .port _
  · exact h ‹_›

theorem submitRestart_happens (hc : s.station ≠ .unstarted → restarts c s = true) (hheld : s.held = false) :
    Happens s c s.submitRestart :=
  whenStarted_happens fun hstarted => .restarts _ (hc hstarted) hheld hstarted

theorem submitSetMask_happens (hheld : s.held = false) : Happens s c s.submitSetMask :=
  whenStarted_happens fun hstarted => .masks _ _ hheld hstarted

/-- An accepted ACK_SIGNAL finds its notice read (R122). -/
theorem notice_of_ackCheck {n : Nat} (h : s.ackCheck n = .accepted) : (s.signalOf (Fin.ofNat 16 n)).notice ≠ .unread := by
  unfold State.ackCheck at h
  split at h
  · rename_i hn
    have : (⟨n, hn⟩ : SignalNo) = Fin.ofNat 16 n := Fin.ext (Nat.mod_eq_of_lt hn).symm
    rw [this] at h
    intro hunread
    simp only [hunread, if_true] at h
    split at h <;> cases h
  · cases h

theorem submitAckSignal_happens (hheld : s.held = false) : Happens s c s.submitAckSignal :=
  whenStarted_happens fun hstarted => by
    split
    · exact .acknowledges _ _ hheld hstarted (notice_of_ackCheck ‹_›)
    · exact .port _

theorem submitReadFault_happens : Happens s c s.submitReadFault :=
  whenStarted_happens fun _ => by split <;> exact .port _

theorem submitClearFaults_happens (hc : clears c s = true) (hheld : s.held = false) : Happens s c s.submitClearFaults :=
  whenStarted_happens fun hstarted => by
    split
    · exact .port _
    · exact .clears _ hc hheld hstarted ‹_›

theorem submitReadReach_happens : Happens s c s.submitReadReach :=
  whenStarted_happens fun _ => by split <;> exact .port _

/-- A write to SUBMIT is the request that its kind field names (R169). -/
theorem submit_happens {value : Word} (hheld : s.held = false) : Happens s (.registerWrite 0x50 value) s.submit := by
  have hkind : s.port.kind = field s 0 0 4 := rfl
  unfold State.submit
  split
  · exact submitQueued_happens _ hheld
  · exact submitQueued_happens _ hheld
  · exact submitQueued_happens _ hheld
  · exact submitStart_happens (by simp_all [starts, submits]) hheld
  · exact submitRestart_happens (fun hstarted => by simp_all [restarts, submits]) hheld
  · exact submitSetMask_happens hheld
  · exact submitAckSignal_happens hheld
  · exact submitReadFault_happens
  · exact submitClearFaults_happens (by simp_all [clears, submits]) hheld
  · exact submitReadReach_happens
  · exact .port _

theorem writeWindow_happens {offset : BitVec 8} {value : Word} (hheld : s.held = false) :
    Happens s (.registerWrite offset value) (s.writeWindow offset value) := by
  unfold State.writeWindow
  dsimp only
  split
  · exact .nothing
  split
  · exact .port _
  split
  · exact .port _
  split
  · rename_i haligned _ _ h20
    have hoffset : offset = 0x50 := by
      simp only [wordOffset, Bool.not_eq_true', beq_eq_false_iff_ne, ne_eq, not_not] at haligned
      exact BitVec.eq_of_toNat_eq (by simp; omega)
    exact hoffset ▸ submit_happens hheld
  · exact .nothing

theorem takeRecord_happens (hheld : s.held = false) : Happens s c s.takeRecord := by
  unfold State.takeRecord
  split
  · exact .port _
  · rename_i record rest hrest
    cases record with
    | signal n first => exact .pops _ _ _ hheld hrest
    | request => exact .pops _ _ _ hheld hrest
    | station => exact .pops _ _ _ hheld hrest

/-- A submission is taken by a station that is not held in reset (R151). -/
theorem submission_happens {f : State → State} (h : s.held = false → Happens s c (f s)) : Happens s c (s.submission f) := by
  unfold State.submission
  split
  · exact .nothing
  · exact h (Bool.eq_false_iff.mpr ‹_›)

/-! ## The round -/

theorem callClose_happens (picture : StationSet) (hpart : s.takesPart = true) (hphase : s.span.phase = .calling) :
    execCallClose picture s = .next (if s.ownsRound (s.pictureRead picture) then
      s.withPhase (.closed (s.pictureRead picture) true s.turn.settle)
    else (s.withPhase (.closed (s.pictureRead picture) false s.turn.settle)).releaseCandidate.done) := by
  cases h : s.ownsRound (s.pictureRead picture) <;> simp [execCallClose, hpart, hphase, h]

theorem answerWindow_happens (asked : Station × Body) (driven : Option AnswerCode) (hpart : s.takesPart = true)
    (hphase : s.span.phase = .answer (some asked) driven) {t : State} (h : execAnswerWindow s = .next t) : Happens s c t := by
  obtain ⟨source, body⟩ := asked
  cases hanswers : s.answers with
  | false =>
    simp only [execAnswerWindow, hpart, hphase, hanswers, Bool.false_eq_true, if_false, Host.Outcome.next.injEq] at h
    exact h ▸ .silent _ driven hpart hphase
  | true =>
    simp only [execAnswerWindow, hpart, hphase, hanswers, if_true, Host.Outcome.next.injEq] at h
    cases hb : body.inbound? with
    | some op =>
      rw [Acceptance.answerFor_of_inbound? hb, Acceptance.answerInbound_eq] at h
      by_cases hcode : s.inboundAnswer op = .taken
      · have hcontained : s.station ≠ .contained := fun hc => by simp [State.inboundAnswer, hc] at hcode
        have hroom : s.inbound.length < 16 := by
          by_contra hfull
          have := (Acceptance.freePlaces_eq_zero_iff s).mpr (Nat.le_of_not_lt hfull)
          simp only [State.inboundAnswer, hcontained, this, if_true, if_false] at hcode
          split at hcode <;> cases hcode
        simp only [hcode, if_true] at h
        exact h ▸ .takesEntry _ driven _ hpart hphase hanswers hcontained hroom rfl
      · simp only [hcode, if_false] at h
        exact h ▸ .declines _ driven _ hpart hphase hanswers hcode
    | none =>
      cases body with
      | ret tag result =>
        simp only [State.answerFor] at h
        have hstale : s.answerReturn source tag result = (.stale, s) → Happens s c t := fun hs => by
          rw [hs] at h
          exact h ▸ .declines _ driven _ hpart hphase hanswers (by simp)
        rcases Nat.lt_or_ge tag.val 8 with htag | htag
        · rw [AnswerWindow.answerReturn_of_slot (k := ⟨tag.val, htag⟩) rfl] at h hstale
          by_cases htakes : s.station ≠ .contained ∧ s.slotTakes ⟨tag.val, htag⟩ source result = true
          · rw [if_pos htakes] at h
            exact h ▸ .takesReturn _ driven _ _ hpart hphase hanswers htakes.1
              ((AnswerWindow.slotTakes_iff _ _ _ _).mp htakes.2).1
          · exact hstale (if_neg htakes)
        · exact hstale (AnswerWindow.answerReturn_of_no_slot htag s source result)
      | post => cases hb
      | fetch => cases hb
      | signal => cases hb
      | hello => exact h ▸ .silent _ driven hpart hphase
      | contain => exact h ▸ .silent _ driven hpart hphase

theorem parcelOutcome_happens (report : LineReport) {t : State} (h : execParcelOutcome report s = .next t) :
    Happens s (.parcelOutcome report) t := by
  simp only [execParcelOutcome, Host.Outcome.next.injEq] at h
  subst h
  split
  · rename_i picture owned settle hpart hphase
    split
    · rename_i hzero
      exact .idles owned settle hpart (hzero ▸ hphase)
    split
    · exact .nothing
    · rename_i hne howned
      rw [Bool.not_eq_true] at howned
      exact .outcome settle none report rfl hpart (.inl ⟨picture, hne, howned ▸ hphase, rfl⟩)
  · exact .outcome _ _ report rfl ‹_› (.inr ‹_›)
  · exact .nothing

/-! ## Every command -/

/-- What a command does is one of the cases. -/
theorem exec_happens {t : State} (h : exec c s = .next t) : Happens s c t := by
  cases c with
  | hardwareResetAssert => exact Host.Outcome.next.inj h ▸ .asserts rfl
  | hardwareResetRelease straps => exact Host.Outcome.next.inj h ▸ .releases straps rfl
  | roundMark =>
    refine Host.Outcome.next.inj h ▸ ?_
    split
    · rename_i hopen
      simp only [Bool.and_eq_true, beq_iff_eq] at hopen
      exact .marks hopen.1 hopen.2
    · exact .nothing
  | callClose picture =>
    by_cases hopen : s.takesPart = true ∧ s.span.phase = .calling
    · obtain rfl := Host.Outcome.next.inj ((callClose_happens picture hopen.1 hopen.2).symm.trans h)
      split
      · exact .owns _ hopen.1 hopen.2 ‹_›
      · exact .yields _ hopen.1 hopen.2 (Bool.eq_false_iff.mpr ‹_›)
    · have hidle : execCallClose picture s = .next s := by
        unfold execCallClose
        rw [if_neg (by simpa using hopen)]
      exact Host.Outcome.next.inj (hidle.symm.trans h) ▸ .nothing
  | parcelWindow =>
    refine Host.Outcome.next.inj h ▸ ?_
    split
    · split
      · exact .nothing
      · exact .opens _ _ _ ‹_› ‹_› ‹_›
    · exact .nothing
  | parcelOutcome report => exact parcelOutcome_happens report h
  | answerWindow =>
    by_cases hasked : s.takesPart = true ∧ ∃ asked driven, s.span.phase = .answer (some asked) driven
    · obtain ⟨hpart, asked, driven, hphase⟩ := hasked
      exact answerWindow_happens asked driven hpart hphase h
    · have hidle : execAnswerWindow s = .next s := by
        unfold execAnswerWindow
        split
        · exact absurd ⟨‹_›, _, _, ‹_›⟩ hasked
        · rfl
      exact Host.Outcome.next.inj (hidle.symm.trans h) ▸ .nothing
  | answerClose report =>
    refine Host.Outcome.next.inj h ▸ ?_
    split
    · split
      · exact .nothing
      · exact .closes _ _ _ ‹_› ‹_› (Bool.eq_false_iff.mpr ‹_›)
    · exact .nothing
  | retryTimerExpiry d =>
    refine Host.Outcome.next.inj h ▸ ?_
    split
    · exact .nothing
    · rename_i hheld
      unfold State.expireRetry
      split
      · exact .retries d (Bool.eq_false_iff.mpr hheld) ‹_›
      · exact .nothing
  | fetchTimerExpiry t =>
    refine Host.Outcome.next.inj h ▸ ?_
    split
    · exact .nothing
    · exact .expires t (Bool.eq_false_iff.mpr ‹_›)
  | applyWriteEnd ending =>
    refine Host.Outcome.next.inj h ▸ ?_
    split
    · rename_i addr data e hheld hstate hhead
      obtain ⟨rest, hrest⟩ := List.head?_eq_some_iff.mp hhead
      exact .writes e rest _ ending hheld hstate rfl hrest
    · exact .nothing
  | applyReadEnd ending =>
    refine Host.Outcome.next.inj h ▸ ?_
    split
    · rename_i addr length e hheld hstate hhead
      obtain ⟨rest, hrest⟩ := List.head?_eq_some_iff.mp hhead
      exact .reads e rest _ ending hheld hstate rfl hrest
    · exact .nothing
  | landingEnd ending =>
    refine Host.Outcome.next.inj h ▸ ?_
    split
    · exact .lands _ _ _ ‹_› ‹_›
    · exact .nothing
  | abandonedAccessEnd ending =>
    refine Host.Outcome.next.inj h ▸ ?_
    split
    · exact .frees _ ‹_›
    · exact .nothing
  | post => exact Host.Outcome.next.inj h ▸ submission_happens fun hheld => submitQueued_happens _ hheld
  | fetch => exact Host.Outcome.next.inj h ▸ submission_happens fun hheld => submitQueued_happens _ hheld
  | signal => exact Host.Outcome.next.inj h ▸ submission_happens fun hheld => submitQueued_happens _ hheld
  | undefinedKind => exact Host.Outcome.next.inj h ▸ submission_happens fun _ => .port _
  | start => exact Host.Outcome.next.inj h ▸ submission_happens fun hheld => submitStart_happens (by simp [starts, hheld]) hheld
  | restart =>
    exact Host.Outcome.next.inj h ▸ submission_happens fun hheld =>
      submitRestart_happens (fun hstarted => by simp [restarts, hheld, hstarted]) hheld
  | setMask => exact Host.Outcome.next.inj h ▸ submission_happens fun hheld => submitSetMask_happens hheld
  | ackSignal => exact Host.Outcome.next.inj h ▸ submission_happens fun hheld => submitAckSignal_happens hheld
  | readFault => exact Host.Outcome.next.inj h ▸ submission_happens fun _ => submitReadFault_happens
  | clearFaults =>
    exact Host.Outcome.next.inj h ▸ submission_happens fun hheld => submitClearFaults_happens (by simp [clears, hheld]) hheld
  | readReach => exact Host.Outcome.next.inj h ▸ submission_happens fun _ => submitReadReach_happens
  | take =>
    refine Host.Outcome.next.inj h ▸ ?_
    split
    · exact .port _
    · exact takeRecord_happens (Bool.eq_false_iff.mpr ‹_›)
  | registerWrite offset value => exact Host.Outcome.next.inj h ▸ submission_happens fun hheld => writeWindow_happens hheld

/-- A step does nothing on an empty queue of commands, and otherwise what the command in front can do (log 5). -/
theorem step_happens {t : State} (h : step s = .next t) :
    t = s ∨ ∃ c rest, Happens { s with pending := rest } c t := by
  unfold step at h
  split at h
  · exact .inl (Host.Outcome.next.inj h).symm
  · exact .inr ⟨_, _, exec_happens h⟩

end Sys2Proof.Events
end

section
/-! The acts that make up an event: each changes one block, and what a parcel outcome, an answer close or the end of an access does is a chain
of them (FIGURE 0-1, R9, R14, R71, R100, R135). A law that every act keeps is kept by the event. -/

namespace Sys2Proof.Acts

open Sys2Proof.Machine Sys2Proof.Safety Sys2Proof.Events

/-! ## What is handed on -/

/-- The records handed on, block by block. -/
def records (h : Handed) : List Completion := h.streams.flatten.flatten

@[simp] theorem records_none : records .none = [] := rfl

theorem records_add_perm (a b : Handed) : (records (a.add b)).Perm (records a ++ records b) := by
  rw [List.perm_iff_count]
  intro c
  simp only [records, Handed.streams, Handed.add, List.flatten_cons, List.flatten_nil, List.flatten_append, List.count_append,
    List.append_nil]
  omega

theorem Handed.add_assoc (a b c : Handed) : (a.add b).add c = a.add (b.add c) := by simp [Handed.add]

/-! ## The acts -/

/-- The events that are chains of acts: a parcel outcome, the release of a candidate or an answer close, and what runs beside the round. -/
inductive Part where
  | outcome
  | close
  | memory
  deriving DecidableEq

/-- One act of an event of part `p` at station `s`. -/
inductive Act (p : Part) (s : State) : Effect → Prop
  | span (u : SpanUnit) : p ≠ .memory → (s.span.voidRun ≤ 255 → u.voidRun ≤ 255) → (s.span.settleCollision ≤ 4 → u.settleCollision ≤ 4) →
      Act p s (quiet { s with span := u })
  | turn (r : TurnRecord) : p = .outcome → (s.turn.repair ≤ 255 → r.repair ≤ 255) → Act p s (quiet { s with turn := r })
  | offline : p = .outcome → s.station = .listening ∨ s.station = .active → Act p s (quiet { s with station := .offline })
  | contained (cause : FaultCause) (addr : Word) (length : Nat) : s.contain.flag = false →
      (p = .outcome ∧ s.station = .active ∨ p = .memory ∧ s.station ≠ .contained ∧ s.station ≠ .offline) →
      Act p s (quiet (s.setContained cause addr length))
  | greeted : p = .outcome → Act p s (quiet { s with helloPending := false })
  | pending (contain : Option PendingContain) (late : StationSet) :
      Act p s (quiet { s with contain := { s.contain with pendingContain := contain, late := late } })
  | fault (r : FaultRecord) : Act p s (quiet (s.addFault r))
  | flagged : p = .memory → s.station = .offline → s.contain.flag = false →
      Act p s (quiet { s with contain := { s.contain with flag := true, cause := some .applyFault } })
  | releases (f : SendEntry → SendEntry) : (∀ e, (f e).op = e.op.withTag none ∧ (f e).inFlight = false ∧ (f e).dest = e.dest) →
      Act p s (quiet { s with sendQueue := s.sendQueue.map fun e => if e.inFlight then f e else e })
  | leaves (keep : SendEntry → Bool) (groups : List Group) : (∀ c ∈ groups.flatten, c.isRequest = true) →
      groups.flatten.length + (s.sendQueue.filter keep).length ≤ s.sendQueue.length →
      Act p s ({ s with sendQueue := s.sendQueue.filter keep }, { Handed.none with sendQueue := groups })
  | fetches (e : SendEntry) (addr : Word) (length : Nat) (landing : Word) (t : SlotNo) : s.inFlightEntry = some e →
      e.op = .fetch addr length landing (some t) → Act p s (quiet (s.removeInFlight.allocate t e.dest landing length e.cookie))
  | returnsReleased : Act p s (quiet s.releaseReturn)
  | returnsDropped (keep : ReturnEntry → Bool) : Act p s (quiet { s with returns := s.returns.filter keep })
  | returnJoins (r : ReturnEntry) : r.inFlight = false → Act p s (quiet { s with returns := s.returns ++ [r] })
  | books (d : Station) (e : ReachEntry) : (s.reachOf d).state ≠ .self → e.state ≠ .self →
      (((s.reachOf d).timer = .stopped ↔ (s.reachOf d).state ≠ .waiting) → (e.timer = .stopped ↔ e.state ≠ .waiting)) →
      ((s.reachOf d).silence ≤ 3 → e.silence ≤ 3) → Act p s (quiet (s.setReach d e))
  | slotsFail (which : FetchSlot → Bool) (status : Status) : Act p s (s.failAwaiting which status)
  | slotEnds (t : SlotNo) (status : Status) : (s.slot t).state = .awaiting ∨ (s.slot t).state = .holding → Act p s (s.endFetch t status)
  | slotKept (t : SlotNo) (f : FetchSlot) : (s.slot t).state = .holding →
      (f.state = .awaiting ∨ f.state = .holding ∧ f.held = (s.slot t).held) → Act p s (quiet (s.setSlot t f))
  | slotLands (t : SlotNo) (data : List Word) : (s.slot t).state = .holding → Act p s (quiet (s.land t data))
  | memory (engine : EngineState) (m : MemPath) : (landings m).Perm (landings s.path) →
      Act p s (quiet { s with engine := engine, path := m })
  | inbound (q : List InboundEntry) : q.length ≤ s.inbound.length → q.countP (·.provisional) ≤ s.inbound.countP (·.provisional) →
      ((∀ e ∈ s.inbound.dropLast, e.provisional = false) → ∀ e ∈ q.dropLast, e.provisional = false) →
      Act p s (quiet { s with inbound := q })
  | raises (n : SignalNo) (source : Station) : Act p s (s.raiseSignal n source)
  | chooses : Act p s (quiet { s with choices := s.choices + 1 })
  | tells (h : Handed) : (∀ c ∈ records h, ∃ k arg, c = notice k arg) → Act p s (s, h)

/-- A chain of acts, with what they hand on. -/
inductive Chain (p : Part) (s : State) : Effect → Prop
  | refl : Chain p s (quiet s)
  | act {e e' : Effect} : Chain p s e → Act p e.1 e' → Chain p s (e'.1, e.2.add e'.2)

variable {p : Part} {s : State}

theorem Act.chain {e : Effect} (h : Act p s e) : Chain p s e := by
  have := Chain.act .refl h
  rwa [quiet_snd, Handed.none_add] at this

theorem Chain.trans {e e' : Effect} (h : Chain p s e) (h' : Chain p e.1 e') : Chain p s (e'.1, e.2.add e'.2) := by
  induction h' with
  | refl => simpa using h
  | act _ hact ih =>
    rw [← Handed.add_assoc]
    exact Chain.act ih hact

theorem Chain.andThen {e : Effect} {f : State → Effect} (h : Chain p s e) (h' : ∀ s', s' = e.1 → Chain p s' (f s')) :
    Chain p s (e.andThen f) := h.trans (h' e.1 rfl)

/-- A chain that hands on nothing, and another. -/
theorem Chain.quiet_trans {s' : State} {e : Effect} (h : Chain p s (quiet s')) (h' : Chain p s' e) : Chain p s e := by
  simpa using h.trans h'

/-- A law that every act keeps is kept by a chain. -/
theorem Chain.keeps {Law : Effect → Prop} (hact : ∀ e e', Act p e.1 e' → Law e → Law (e'.1, e.2.add e'.2)) {e : Effect}
    (h : Chain p s e) (hs : Law (quiet s)) : Law e := by
  induction h with
  | refl => exact hs
  | act _ ha ih => exact hact _ _ ha ih

/-- A law of the station that every act keeps is kept by a chain. -/
theorem Chain.preserves {Law : State → Prop} (hact : ∀ s e, Act p s e → Law s → Law e.1) {e : Effect} (h : Chain p s e) (hs : Law s) :
    Law e.1 := h.keeps (Law := fun e => Law e.1) (fun e e' => hact e.1 e') hs

/-! ## The send queue -/

theorem releaseInFlight_chain : Chain p s (quiet s.releaseInFlight) :=
  Act.chain (.releases SendEntry.release fun _ => ⟨rfl, rfl, rfl⟩)

theorem raiseFull_chain : Chain p s (quiet s.raiseFull) :=
  Act.chain (.releases (fun e => { e.release with fullCount := e.fullCount + 1 }) fun _ => ⟨rfl, rfl, rfl⟩)

theorem isRequest_of_mem_laneRecords {status : Status} {es : List SendEntry} {c : Completion} (h : c ∈ laneRecords status es) :
    c.isRequest = true := by
  cases es with
  | nil => simp [laneRecords] at h
  | cons e rest =>
    rcases List.mem_cons.mp h with rfl | h
    · rfl
    · obtain ⟨x, -, rfl⟩ := List.mem_map.mp h
      rfl

theorem isRequest_of_mem_map {status : Status} {es : List SendEntry} {c : Completion} (h : c ∈ es.map fun e => e.record status) :
    c.isRequest = true := by
  obtain ⟨x, -, rfl⟩ := List.mem_map.mp h
  rfl

theorem closeLane_chain (d : Station) (status : Status) : Chain p s (s.closeLane d status) := by
  obtain ⟨-, -, hlength⟩ := s.closeLane_spec d status
  refine Act.chain (.leaves (fun e => e.dest != d) [laneRecords status (s.lane d)] ?_ ?_)
  · intro c hc
    exact isRequest_of_mem_laneRecords (by simpa using hc)
  · rw [List.flatten_singleton]
    exact hlength.le

theorem length_filter_add_filter_not {α : Type} (f : α → Bool) (l : List α) :
    (l.filter f).length + (l.filter fun a => !f a).length = l.length := by
  rw [← List.countP_eq_length_filter, ← List.countP_eq_length_filter, List.length_eq_countP_add_countP f]
  simp

theorem flushSends_chain : Chain p s s.flushSends := by
  refine Act.chain (.leaves _ _ (fun c hc => isRequest_of_mem_map (List.flatten_singleton ▸ hc)) ?_)
  simpa [Nat.add_comm] using (length_filter_add_filter_not SendEntry.inFlight s.sendQueue).le

theorem failInFlight_chain : Chain p s s.failInFlight := by
  refine Act.chain (.leaves _ _ (fun c hc => isRequest_of_mem_map (List.flatten_singleton ▸ hc)) ?_)
  simpa using (length_filter_add_filter_not SendEntry.inFlight s.sendQueue).le

/-- The in-flight entry that is taken leaves, with one record at most (R40, R44). -/
theorem removeInFlight_lt {e : SendEntry} (h : s.inFlightEntry = some e) : s.removeInFlight.sendQueue.length < s.sendQueue.length := by
  rw [State.removeInFlight, List.length_filter_lt_length_iff_exists]
  exact ⟨e, List.mem_of_find?_eq_some h, by simpa using List.find?_some h⟩

theorem entryTaken_chain {e : SendEntry} (h : s.inFlightEntry = some e) : Chain p s (s.entryTaken e) := by
  have hlt := removeInFlight_lt h
  unfold State.entryTaken
  split
  · exact Act.chain (.fetches e _ _ _ _ h ‹_›)
  · exact Act.chain (.leaves _ [] (by simp) (by simpa using hlt.le))
  · refine Act.chain (.leaves _ _ ?_ ?_)
    · intro c hc
      split at hc
      · simp at hc
        exact hc ▸ rfl
      · simp at hc
    · split
      · exact (Nat.add_comm _ _).trans_le hlt
      · exact (Nat.zero_add _).trans_le hlt.le

/-! ## The reach table, and the closing of a destination -/

theorem setReach_reachOf (s : State) (d : Station) : s.setReach d (s.reachOf d) = s := by
  simp [State.setReach, State.reachOf]

theorem alive_form (e : ReachEntry) (hself : e.state ≠ .self) :
    e.alive.state ≠ .self ∧ ((e.timer = .stopped ↔ e.state ≠ .waiting) → (e.alive.timer = .stopped ↔ e.alive.state ≠ .waiting)) := by
  cases h : e.state <;> simp_all [ReachEntry.alive]

theorem room_form (e : ReachEntry) (flag : Bool) (hself : e.state ≠ .self) :
    (e.room flag).state ≠ .self ∧ (e.room flag).silence = e.silence ∧
      ((e.timer = .stopped ↔ e.state ≠ .waiting) → ((e.room flag).timer = .stopped ↔ (e.room flag).state ≠ .waiting)) := by
  unfold ReachEntry.room
  split
  · exact ⟨by simp, rfl, by simp⟩
  · exact ⟨hself, rfl, id⟩

theorem hear_chain (d : Station) (room : Bool) : Chain p s (quiet (s.hear d room)) := by
  unfold State.hear ReachEntry.heard
  split
  · rw [setReach_reachOf]
    exact .refl
  · rename_i hself
    obtain ⟨halive, htimer⟩ := alive_form (s.reachOf d) hself
    obtain ⟨hroom, hsilence, htimer'⟩ := room_form _ room halive
    exact Act.chain (.books d _ hself hroom (htimer' ∘ htimer) fun _ => by simp [hsilence])

theorem bookReply_chain (d : Station) : Chain p s (quiet (s.bookReply d)) := by
  unfold State.bookReply
  split
  · rw [setReach_reachOf]
    exact .refl
  · rename_i hself
    obtain ⟨halive, htimer⟩ := alive_form (s.reachOf d) hself
    exact Act.chain (.books d _ hself halive htimer fun _ => by simp)

theorem replyBusy_chain (d : Station) : Chain p s (quiet (s.replyBusy d)) := by
  unfold State.replyBusy
  dsimp only
  refine (bookReply_chain d).quiet_trans ?_
  split
  · rename_i hopen
    exact Act.chain (.books d _ (by rintro hself; simp [hself] at hopen) (by simp) (by simp) id)
  · exact .refl

/-- A request of the apply engine is no landing. -/
theorem landings_apply_start {m : MemPath} (h : m.state = .free) (a : Access) (w : Option Access) :
    landings { m with state := .busy .apply a, applyWaiting := w, lastServed := .apply } = landings m := by
  simp [landings, h]

theorem applyHead_chain : Chain p s (quiet s.applyHead) := by
  have hask (a : Access) : Chain p s (quiet (s.askApply a)) := by
    rcases s.askApply_cases a with ⟨hfree, h⟩ | ⟨-, h⟩ <;> rw [h]
    · exact Act.chain (.memory .inAccess _ (.of_eq (landings_apply_start hfree a _)))
    · exact Act.chain (.memory .pathWait _ (.refl _))
  rcases s.applyHead_cases with h | ⟨e, rest, addr, data, -, -, -, h⟩ | ⟨e, rest, addr, length, tag, -, -, -, ⟨-, h⟩ | ⟨-, h⟩⟩ <;> rw [h]
  · exact Act.chain (.memory .idle s.path (.refl _))
  · exact hask _
  · exact hask _
  · exact Act.chain (.memory .roomWait s.path (.refl _))

theorem leaveRoomWait_chain : Chain p s (quiet s.leaveRoomWait) := by
  unfold State.leaveRoomWait
  split
  · exact applyHead_chain
  · exact .refl

theorem removeReturn_chain : Chain p s (quiet s.removeReturn) :=
  (Act.chain (.returnsDropped fun r => !r.inFlight)).quiet_trans leaveRoomWait_chain

theorem dropReturns_chain (d : Station) : Chain p s (quiet (s.dropReturns d)) :=
  (Act.chain (.returnsDropped fun r => r.inFlight || r.requester != d)).quiet_trans leaveRoomWait_chain

theorem closeDestination_chain (d : Station) (status : Status) : Chain p s (s.closeDestination d status) :=
  ((closeLane_chain d status).andThen fun _ _ => Act.chain (.slotsFail _ _)).andThen fun _ _ => dropReturns_chain d

theorem reachNotice_tells (k : NoticeKind) (d : Station) : Act p s (s, reachNotice k d) :=
  .tells _ fun c hc => ⟨k, d.val, by simpa [records, reachNotice, Handed.streams, Handed.none] using hc⟩

theorem containNotice_tells (k : NoticeKind) (d : Station) : Act p s (s, containNotice k d) :=
  .tells _ fun c hc => ⟨k, d.val, by simpa [records, containNotice, Handed.streams, Handed.none] using hc⟩

theorem books_contained (d : Station) (h : (s.reachOf d).state ≠ .self) :
    Act p s (quiet (s.setReach d { s.reachOf d with state := .contained, timer := .stopped })) :=
  .books d _ h (by simp) (by simp) id

theorem peerHalts_chain (d : Station) : Chain p s (s.peerHalts d) := by
  unfold State.peerHalts
  split
  · exact .refl
  · rename_i hopen
    exact (((books_contained d fun h => hopen (.inr h)).chain.quiet_trans (closeDestination_chain d _))).andThen fun _ _ => Act.chain (reachNotice_tells _ d)

theorem replyRefused_chain (d : Station) : Chain p s (s.replyRefused d) :=
  (bookReply_chain d).quiet_trans (peerHalts_chain d)

theorem noReply_chain (d : Station) : Chain p s (s.noReply d) := by
  rcases s.noReply_cases d with ⟨-, h⟩ | ⟨-, hopen, h⟩ | ⟨hself, -, h⟩ <;> rw [h]
  · exact .refl
  · have hself : (s.reachOf d).state ≠ .self := by rcases hopen with h | h | h <;> simp [h]
    exact (Act.chain (.books d _ hself (by simp) (by simp) (by simp))).quiet_trans (closeDestination_chain d _)
  · exact Act.chain (.books d _ hself hself id fun _ => by simp)

theorem peerRestarts_chain (d : Station) : Chain p s (s.peerRestarts d) := by
  unfold State.peerRestarts
  dsimp only
  split
  · exact .refl
  · have hbook : Act p s (quiet (s.setReach d { state := .reachable, silence := 0, timer := .stopped })) :=
      .books d _ ‹_› (by simp) (by simp) (by simp)
    split
    · exact hbook.chain
    · exact (hbook.chain.quiet_trans (Act.chain (.slotsFail _ _))).andThen fun _ _ => Act.chain (reachNotice_tells _ d)

theorem reachConsumes_chain (d : Station) (room : Bool) (body : Option Body) : Chain p s (s.reachConsumes d room body) := by
  unfold State.reachConsumes
  split
  · exact peerRestarts_chain d
  · exact (hear_chain d room).quiet_trans (peerHalts_chain d)
  · refine (hear_chain d room).quiet_trans ?_
    unfold State.peerFaults
    split
    · exact .refl
    · exact Act.chain (reachNotice_tells _ d)
  · exact hear_chain d room

/-! ## The containment unit -/

theorem stopEngine_chain : Chain p s (quiet s.stopEngine) := by
  rcases s.stopEngine_spec with ⟨-, h⟩ | ⟨-, h⟩ <;> rw [h]
  · exact .refl
  · exact Act.chain (.memory .stopped _ (.refl _))

theorem enterContainment_chain (cause : FaultCause) (addr : Word) (length : Nat) (hflag : s.contain.flag = false)
    (hstation : p = .outcome ∧ s.station = .active ∨ p = .memory ∧ s.station ≠ .contained ∧ s.station ≠ .offline) :
    Chain p s (s.enterContainment cause addr length) :=
  ((Act.chain (.contained cause addr length hflag hstation)).quiet_trans (stopEngine_chain.quiet_trans flushSends_chain)).andThen
    fun _ _ => Act.chain (.slotsFail _ _)

theorem addFault_flag (s : State) (r : FaultRecord) : (s.addFault r).contain.flag = s.contain.flag := by
  rcases s.addFault_cases r with ⟨-, h⟩ | ⟨-, h⟩ <;> rw [h]

theorem implicationHalts_iff (s : State) :
    s.implicationHalts = true ↔ s.station = .active ∧ s.policy = .halt ∧ s.contain.flag = false := by
  simp [State.implicationHalts, and_assoc]

theorem implicated_chain (d : Station) (addr : Word) (length : Nat) (hp : p = .outcome) : Chain p s (s.implicated d addr length) := by
  refine (Act.chain (containNotice_tells .postLost d)).andThen ?_
  rintro s' rfl
  split
  · rename_i hhalts
    obtain ⟨hactive, -, hflag⟩ := (implicationHalts_iff _).mp hhalts
    exact (Act.chain (.fault _)).quiet_trans
      (enterContainment_chain _ _ _ ((addFault_flag _ _).trans hflag) (.inl ⟨hp, hactive⟩))
  · split
    · exact Act.chain (.fault _)
    · exact .refl

theorem containConsumes_chain (d : Station) (body : Option Body) (hp : p = .outcome) : Chain p s (s.containConsumes d body) := by
  unfold State.containConsumes
  split
  · split
    · exact implicated_chain d _ _ hp
    · exact .refl
  · exact .refl

theorem eitherOrder_chain {first : Bool} {f g : State → Effect} (hf : ∀ s : State, Chain p s (f s)) (hg : ∀ s : State, Chain p s (g s)) :
    Chain p s (eitherOrder first f g s) := by
  cases first with
  | true => exact (hf s).andThen fun s' _ => hg s'
  | false => exact (hg s).andThen fun s' _ => hf s'

/-- The station at the HALTED CONTAIN of `d` that closes it and contains this station, before the three blocks that the orders are free for act
(R67, R135, R144; log 3). -/
def halting (s : State) (d : Station) (room : Bool) (addr : Word) (length : Nat) : State :=
  let heard := State.hear { s with choices := s.choices + 3 } d room
  ((heard.setReach d { heard.reachOf d with state := .contained, timer := .stopped }).addFault
    (implicationRecord d addr length true)).setContained .implicated addr length

/-- What is told of that CONTAIN: PEER_HALTED and POST_LOST. -/
def haltingNotices (d : Station) : Handed := { Handed.none with reach := [[notice .peerHalted d.val]], contain := [[notice .postLost d.val]] }

/-- The send queue, the fetch table and the apply engine act one after another, each on the closing and the containment in one of two orders. -/
theorem haltedBy_eq (s : State) (d : Station) (room : Bool) (addr : Word) (length : Nat) :
    ∃ laneFirst slotsFirst dropFirst,
      s.haltedBy d room addr length =
        (((eitherOrder laneFirst (fun s => s.closeLane d .destContained) State.flushSends (halting s d room addr length)).andThen
          (eitherOrder slotsFirst (fun s => s.failSlotsFor d .destContained) State.flushSlots)).andThen
          (eitherOrder dropFirst (fun s => quiet (s.dropReturns d)) fun s => quiet s.stopEngine)).andThen
          fun s => (s, haltingNotices d) :=
  ⟨_, _, _, rfl⟩

theorem heard_ne_self {e : ReachEntry} (room : Bool) (h : e.state ≠ .self) : (e.heard room).state ≠ .self := by
  rw [ReachEntry.heard, if_neg h]
  exact (room_form _ room (alive_form _ h).1).1

theorem haltedBy_chain (d : Station) (room : Bool) (addr : Word) (length : Nat) (hp : p = .outcome) (hactive : s.station = .active)
    (hflag : s.contain.flag = false) (hself : (s.reachOf d).state ≠ .self) : Chain p s (s.haltedBy d room addr length) := by
  obtain ⟨laneFirst, slotsFirst, dropFirst, h⟩ := haltedBy_eq s d room addr length
  have hchoices : Chain p s (quiet { s with choices := s.choices + 3 }) :=
    (Act.chain .chooses).quiet_trans ((Act.chain .chooses).quiet_trans (Act.chain .chooses))
  have hhalting : Chain p s (quiet (halting s d room addr length)) := by
    refine hchoices.quiet_trans ((hear_chain d room).quiet_trans ?_)
    have hself' : ((State.hear { s with choices := s.choices + 3 } d room).reachOf d).state ≠ .self := by
      rw [State.hear, State.reachOf_setReach_same]
      exact heard_ne_self room hself
    refine (books_contained d hself').chain.quiet_trans ((Act.chain (.fault (implicationRecord d addr length true))).quiet_trans ?_)
    exact Act.chain (.contained _ _ _ ((addFault_flag _ _).trans hflag) (.inl ⟨hp, hactive⟩))
  rw [h]
  refine Chain.andThen (Chain.andThen (Chain.andThen (hhalting.quiet_trans ?_) ?_) ?_) ?_
  · exact eitherOrder_chain (fun _ => closeLane_chain d _) fun _ => flushSends_chain
  · exact fun s' _ => eitherOrder_chain (fun _ => Act.chain (.slotsFail _ _)) fun _ => Act.chain (.slotsFail _ _)
  · exact fun s' _ => eitherOrder_chain (fun _ => dropReturns_chain d) fun _ => stopEngine_chain
  · intro s' _
    refine Act.chain (.tells _ fun c hc => ?_)
    have : c = notice .peerHalted d.val ∨ c = notice .postLost d.val := by
      simpa [records, haltingNotices, Handed.streams, Handed.none] using hc
    rcases this with h | h <;> exact ⟨_, _, h⟩

/-- A HALTED CONTAIN that closes its sender and contains this station finds it ACTIVE with its flag clear (R67, R141). -/
theorem haltsBoth_spec {d : Station} {body : Option Body} (h : s.haltsBoth d body = true) :
    (s.reachOf d).state ≠ .contained ∧ (s.reachOf d).state ≠ .self ∧ s.implicationHalts = true ∧
      ∃ cause named addr length, body = some (.contain .halted cause named addr length) ∧ s.namedBy named = true := by
  unfold State.haltsBoth at h
  split at h
  · simp only [Bool.and_eq_true, bne_iff_ne] at h
    obtain ⟨⟨⟨hcontained, hself⟩, hnamed⟩, hhalts⟩ := h
    exact ⟨hcontained, hself, hhalts, _, _, _, _, rfl, hnamed⟩
  · cases h

/-- A good parcel is consumed by both blocks in one act where it closes its sender and contains this station, and otherwise by the reach table
and then by the containment unit (R9, R67; log 3). -/
theorem consume_cases (s : State) (d : Station) (room : Bool) (body : Option Body) :
    (s.haltsBoth d body = true ∧ ∃ cause named addr length, body = some (.contain .halted cause named addr length) ∧
        s.consume d room body = s.haltedBy d room addr length) ∨
      (s.haltsBoth d body = false ∧
        s.consume d room body = (s.reachConsumes d room body).andThen fun s' => s'.containConsumes d body) := by
  cases h : s.haltsBoth d body with
  | true =>
    obtain ⟨-, -, -, cause, named, addr, length, rfl, -⟩ := haltsBoth_spec h
    exact .inl ⟨rfl, cause, named, addr, length, rfl, by simp [State.consume, h]⟩
  | false => exact .inr ⟨rfl, by simp [State.consume, h]⟩

theorem consume_chain (d : Station) (room : Bool) (body : Option Body) (hp : p = .outcome) : Chain p s (s.consume d room body) := by
  rcases consume_cases s d room body with ⟨hboth, cause, named, addr, length, -, h⟩ | ⟨-, h⟩ <;> rw [h]
  · obtain ⟨-, hself, hhalts, -⟩ := haltsBoth_spec hboth
    obtain ⟨hactive, -, hflag⟩ := (implicationHalts_iff s).mp hhalts
    exact haltedBy_chain d room addr length hp hactive hflag hself
  · exact (reachConsumes_chain d room body).andThen fun _ _ => containConsumes_chain d body hp

theorem recordFault_chain (e : InboundEntry) (halted : Bool) : Chain p s (s.recordFault e halted) := by
  have h : s.recordFault e halted =
      (quiet (s.addFault (e.faultRecord halted))).andThen fun s' => (s', containNotice .localFault e.source) := by
    rw [Effect.quiet_andThen, State.recordFault]
  rw [h]
  exact (Act.chain (.fault _)).andThen fun _ _ => Act.chain (containNotice_tells _ _)

theorem applyFault_chain (e : InboundEntry) (hp : p = .memory) : Chain p s (s.applyFault e) := by
  unfold State.applyFault
  split
  · rename_i hoffline
    split
    · rename_i hhalt
      refine (recordFault_chain e true).andThen ?_
      rintro s' rfl
      exact Act.chain (.flagged hp hoffline ((addFault_flag _ _).trans (by simpa using hhalt.2)))
    · exact recordFault_chain e false
  · rename_i hoffline
    split
    · exact recordFault_chain e false
    · rename_i hclear
      obtain ⟨hcontained, hflag⟩ := not_or.mp hclear
      split
      · refine (recordFault_chain e true).andThen ?_
        rintro s' rfl
        exact enterContainment_chain _ _ _ ((addFault_flag _ _).trans (by simpa using hflag)) (.inr ⟨hp, hcontained, hoffline⟩)
      · refine (recordFault_chain e false).andThen ?_
        rintro s' rfl
        unfold ContainUnit.report
        split
        · exact Act.chain (.pending _ _)
        · split
          · exact Act.chain (.pending _ _)
          · exact .refl

/-! ## The inbound queue and the apply engine -/

theorem dropLast_sublist_of_suffix {α : Type} {q l : List α} (h : q <:+ l) : ∀ x ∈ q.dropLast, x ∈ l.dropLast := by
  obtain ⟨pre, rfl⟩ := h
  intro x hx
  rcases List.eq_nil_or_concat q with rfl | ⟨q', y, rfl⟩
  · simp at hx
  · simp only [List.concat_eq_append, ← List.append_assoc, List.dropLast_concat] at hx ⊢
    exact List.mem_append_right _ hx

theorem suffix_act {q : List InboundEntry} (h : q <:+ s.inbound) : Act p s (quiet { s with inbound := q }) :=
  .inbound q h.length_le (h.sublist.countP_le) fun hall e he => hall e (dropLast_sublist_of_suffix h e he)

theorem dropHead_chain : Chain p s (quiet s.dropHead) := Act.chain (suffix_act (List.tail_suffix _))

theorem settleProvisional_chain (taken : Bool) : Chain p s (quiet (s.settleProvisional taken)) := by
  unfold State.settleProvisional
  cases taken with
  | true =>
    refine Act.chain (.inbound _ (by simp) ?_ ?_)
    · simp [List.countP_map, Function.comp_def]
    · intro _ e he
      rw [if_pos rfl, ← List.map_dropLast] at he
      obtain ⟨x, -, rfl⟩ := List.mem_map.mp he
      rfl
  | false =>
    refine Act.chain (.inbound _ (List.length_filter_le _ _) ((List.filter_sublist).countP_le) ?_)
    intro _ e he
    simpa using (List.mem_filter.mp (List.mem_of_mem_dropLast he)).2

theorem raiseHeads_chain (q : List InboundEntry) (h : q <:+ s.inbound) : Chain p s (s.raiseHeads q) := by
  induction q generalizing s with
  | nil => exact Act.chain (suffix_act h)
  | cons e rest ih =>
    unfold State.raiseHeads
    split
    · exact Act.chain (suffix_act h)
    · split
      · exact (Act.chain (.raises _ _)).andThen fun s' hs' => ih (hs' ▸ (List.suffix_cons e rest).trans h)
      · exact Act.chain (suffix_act h)

theorem takeHead_chain : Chain p s s.takeHead :=
  (raiseHeads_chain s.inbound (List.suffix_refl _)).andThen fun _ _ => applyHead_chain

theorem wakeEngine_chain : Chain p s s.wakeEngine := by
  unfold State.wakeEngine
  split
  · exact takeHead_chain
  · exact .refl

theorem engineGoesOn_chain : Chain p s s.engineGoesOn := by
  have hengine (e : EngineState) : Chain p s (quiet { s with engine := e }) := Act.chain (.memory e s.path (.refl _))
  unfold State.engineGoesOn
  split
  · exact hengine .stopped
  · exact (hengine .idle).quiet_trans takeHead_chain

theorem joinReturn_chain (d : Station) (tag : SlotNo) (result : FetchResult) : Chain p s (quiet (s.joinReturn d tag result)) := by
  rcases s.joinReturn_cases d tag result with ⟨-, h⟩ | ⟨-, -, h⟩ <;> rw [h]
  · exact .refl
  · exact Act.chain (.returnJoins _ rfl)

/-- The path that falls FREE starts a waiting request, or none: the landings that wait are its landings then (R112, R113). -/
theorem landings_pathFallsFree_perm (s : State) : (landings s.pathFallsFree.path).Perm (s.path.landingWaiting.map Prod.fst) := by
  rcases s.pathFallsFree_cases with ⟨-, hl, hf⟩ | ⟨a, -, -, hf⟩ | ⟨t, b, rest, hl, -, hf⟩ <;> rw [hf]
  · simp [landings, hl]
  · simp [landings]
  · simp [landings, hl]

/-- After an access of the apply engine the path keeps its landings. -/
theorem landings_pathFallsFree {a : Access} (h : s.path.state = .busy .apply a) : (landings s.pathFallsFree.path).Perm (landings s.path) := by
  have hnow : landings s.path = s.path.landingWaiting.map Prod.fst := by simp [landings, h]
  exact hnow ▸ landings_pathFallsFree_perm s

theorem pathFallsFree_chain {a : Access} (h : s.path.state = .busy .apply a) : Chain p s (quiet s.pathFallsFree) := by
  rw [State.pathFallsFree_frame]
  exact Act.chain (.memory _ _ (landings_pathFallsFree h))

theorem postEnds_chain (e : InboundEntry) (ending : AccessEnd) (hp : p = .memory) : Chain p s (s.postEnds e ending) := by
  have hengine : Chain p s (quiet { s with engine := .stopped }) := Act.chain (.memory .stopped s.path (.refl _))
  have hnext (s : State) : Chain p s s.dropHead.engineGoesOn := dropHead_chain.quiet_trans engineGoesOn_chain
  cases ending with
  | ok => exact hnext s
  | error =>
    simp only [State.postEnds]
    split
    · exact hengine.quiet_trans (applyFault_chain e hp)
    · exact (applyFault_chain e hp).andThen fun s' _ => hnext s'

theorem fetchEnds_chain (e : InboundEntry) (ending : ReadEnd) : Chain p s (s.fetchEnds e ending) := by
  unfold State.fetchEnds
  split
  · exact dropHead_chain.quiet_trans ((joinReturn_chain _ _ _).quiet_trans engineGoesOn_chain)
  · exact dropHead_chain.quiet_trans engineGoesOn_chain

/-! ## The fetch table -/

theorem expireFetch_chain (t : SlotNo) : Chain p s (s.expireFetch t) := by
  unfold State.expireFetch
  split
  · exact .refl
  split
  · exact Act.chain (.slotEnds t _ (.inl ‹_›))
  split
  · exact Act.chain (.slotKept t _ ‹_› (.inr ⟨‹_›, rfl⟩))
  · exact .refl

theorem expires_chain (s : State) (t : SlotNo) : Chain .memory s (s.expireFetch t) := expireFetch_chain t

theorem decideSlot_chain (t : SlotNo) (taken : Bool) (h : (s.slot t).state = .holding) : Chain p s (s.decideSlot t taken) := by
  unfold State.decideSlot
  split
  · exact Act.chain (.slotEnds t _ (.inr h))
  split
  · split
    · exact Act.chain (.slotLands t _ h)
    · exact Act.chain (.slotEnds t _ (.inr h))
  split
  · exact Act.chain (.slotEnds t _ (.inr h))
  · exact Act.chain (.slotKept t _ h (.inl rfl))

theorem settleHolder_chain (taken : Bool) : Chain p s (s.settleHolder taken) := by
  refine ((settleProvisional_chain taken).quiet_trans wakeEngine_chain).andThen fun s' _ => ?_
  split
  · rename_i t ht
    exact decideSlot_chain t taken (by simpa using List.find?_some ht)
  · exact .refl

/-! ## Settlement -/

theorem settleEntry_chain {e : SendEntry} (o : AnswerOutcome) (h : s.inFlightEntry = some e) : Chain p s (s.settleEntry e o) := by
  have hnone : Chain p s ((s.noReply e.dest).andThen fun s' => quiet s'.releaseInFlight) :=
    (noReply_chain e.dest).andThen fun _ _ => releaseInFlight_chain
  cases o with
  | void => exact hnone
  | silent => exact hnone
  | good code =>
    cases code with
    | taken => exact (bookReply_chain e.dest).quiet_trans (entryTaken_chain h)
    | full =>
      simp only [State.settleEntry]
      split
      · exact raiseFull_chain.quiet_trans (replyBusy_chain e.dest)
      · exact (bookReply_chain e.dest).quiet_trans (closeLane_chain e.dest _)
    | outside => exact (bookReply_chain e.dest).quiet_trans (closeLane_chain e.dest _)
    | refused => exact (closeLane_chain e.dest _).andThen fun _ _ => replyRefused_chain e.dest
    | stale => exact (bookReply_chain e.dest).quiet_trans releaseInFlight_chain

theorem bookAnswer_chain (d : Station) (o : AnswerOutcome) : Chain p s (s.bookAnswer d o) := by
  unfold State.bookAnswer
  split
  · exact replyRefused_chain d
  · exact bookReply_chain d
  · exact bookReply_chain d
  · exact bookReply_chain d
  · exact bookReply_chain d
  · exact noReply_chain d
  · exact noReply_chain d

theorem settleContained_chain {e : SendEntry} (o : AnswerOutcome) (h : s.inFlightEntry = some e) : Chain p s (s.settleContained e o) := by
  unfold State.settleContained
  refine Chain.andThen ?_ fun _ _ => bookAnswer_chain e.dest o
  split
  · exact entryTaken_chain h
  · exact failInFlight_chain

theorem settleReturn_chain (d : Station) (o : AnswerOutcome) : Chain p s (s.settleReturn d o) := by
  have hbooked : Chain p s (quiet (s.bookReply d).removeReturn) := (bookReply_chain d).quiet_trans removeReturn_chain
  have hstale : Chain p s ((s.bookReply d).removeReturn, { Handed.none with returns := [[notice .returnStale d.val]] }) :=
    hbooked.quiet_trans (Act.chain (.tells _ fun c hc =>
      ⟨.returnStale, d.val, by simpa [records, Handed.streams, Handed.none] using hc⟩))
  have hnone : Chain p s ((s.noReply d).andThen fun s' =>
      quiet (if (s'.reachOf d).state = .unreachable then s'.removeReturn else s'.releaseReturn)) := by
    refine (noReply_chain d).andThen fun s' _ => ?_
    split
    · exact removeReturn_chain
    · exact Act.chain .returnsReleased
  unfold State.settleReturn
  split
  · exact hbooked
  · exact hstale
  · exact hstale
  · exact hstale
  · exact removeReturn_chain.andThen fun _ _ => replyRefused_chain d
  · exact hnone
  · exact hnone

theorem settleCandidate_chain (o : AnswerOutcome) : Chain p s (s.settleCandidate o) := by
  unfold State.settleCandidate
  split
  · split
    · split
      · exact settleContained_chain o ‹_›
      · exact settleEntry_chain o ‹_›
    · exact .refl
  · split
    · exact settleReturn_chain _ o
    · exact .refl
  · exact .refl

/-! ## The round -/

theorem span_chain (u : SpanUnit) (hp : p ≠ .memory) (hvoid : u.voidRun = s.span.voidRun) (hcoll : u.settleCollision = s.span.settleCollision) :
    Chain p s (quiet { s with span := u }) :=
  Act.chain (.span u hp (fun h => hvoid ▸ h) fun h => hcoll ▸ h)

theorem endRound_chain (hp : p ≠ .memory) : Chain p s (quiet s.endRound) := span_chain _ hp rfl rfl

theorem clearCandidate_chain (hp : p ≠ .memory) : Chain p s (quiet s.clearCandidate) := span_chain _ hp rfl rfl

theorem releaseCandidate_chain (hp : p ≠ .memory) : Chain p s s.releaseCandidate := by
  unfold State.releaseCandidate
  split
  · split
    · exact (clearCandidate_chain hp).quiet_trans failInFlight_chain
    · exact (clearCandidate_chain hp).quiet_trans releaseInFlight_chain
  · exact (clearCandidate_chain hp).quiet_trans (Act.chain .returnsReleased)
  · exact (clearCandidate_chain hp).quiet_trans (Act.chain (.pending _ 0))
  · exact clearCandidate_chain hp
  · exact clearCandidate_chain hp

/-- A caller that is not the owner releases its candidate at call close (R6). -/
theorem yields_chain (picture : StationSet) (settle : Bool) :
    Chain .close s (s.withPhase (.closed picture false settle)).releaseCandidate :=
  (span_chain { s.span with phase := .closed picture false settle } (by simp) rfl rfl).quiet_trans (releaseCandidate_chain (by simp))

theorem broadcastSent_chain (hp : p = .outcome) : Chain p s (quiet s.broadcastSent) := by
  have hclear := clearCandidate_chain (p := p) (s := s) (by simp [hp])
  unfold State.broadcastSent
  split
  · exact hclear.quiet_trans (Act.chain (.greeted hp))
  · refine hclear.quiet_trans ?_
    unfold ContainUnit.sent
    split
    · exact Act.chain (.pending _ 0)
    split
    · exact Act.chain (.pending _ 0)
    split
    · exact Act.chain (.pending _ 0)
    · exact Act.chain (.pending _ 0)
  · exact .refl

/-- What a round's end makes of a chain: it stands alone, or the round that it ended is counted (R157). -/
def Counted (p : Part) (s : State) (e : Effect) : Prop :=
  Chain p s e ∨ ∃ e', Chain p s e' ∧ e = (e'.1.countRound, e'.2)

theorem Counted.after {e : Effect} {f : State → Effect} (h : Chain p s e) (h' : Counted p e.1 (f e.1)) : Counted p s (e.andThen f) := by
  rcases h' with h' | ⟨e', h', he'⟩
  · exact .inl (h.trans h')
  · refine .inr ⟨_, h.trans h', ?_⟩
    rw [Effect.andThen, he']

theorem afterParcel_counted (answered : Bool) (ask : Option (Station × Body)) (hp : p ≠ .memory) :
    Counted p s (s.afterParcel answered ask) := by
  unfold State.afterParcel
  split
  · exact .inl (span_chain _ hp rfl rfl)
  · exact Counted.after (releaseCandidate_chain hp) (.inr ⟨_, endRound_chain hp, rfl⟩)

theorem wentOffline_tells : Act p s (s, wentOffline) :=
  .tells _ fun c hc => ⟨.wentOffline, duplicateNumber, by simpa [records, wentOffline, Handed.streams, Handed.none] using hc⟩

theorem goOffline_chain (hp : p = .outcome) (hstation : s.station = .listening ∨ s.station = .active) : Chain p s (quiet s.goOffline) :=
  releaseInFlight_chain.quiet_trans ((Act.chain .returnsReleased).quiet_trans
    ((endRound_chain (by simp [hp])).quiet_trans (Act.chain (.offline hp hstation))))

/-- A station that takes part and is not CONTAINED is in LISTENING or ACTIVE (R2). -/
theorem station_of_takesPart (hpart : s.takesPart = true) (hc : s.station ≠ .contained) : s.station = .listening ∨ s.station = .active := by
  cases h : s.station <;> simp_all [State.takesPart]

theorem duplicate_chain (hp : p = .outcome) (hpart : s.takesPart = true) : Chain p s s.duplicate := by
  unfold State.duplicate
  split
  · exact (span_chain { s.span with callBar := true } (by simp [hp]) rfl rfl).quiet_trans (Act.chain wentOffline_tells)
  · exact (goOffline_chain hp (station_of_takesPart hpart ‹_›)).quiet_trans (Act.chain wentOffline_tells)

theorem voidRound_chain (hp : p = .outcome) : Chain p s s.voidRound := by
  have hspan : Act p s (quiet { s with span := { s.span with voidRun := bump s.span.voidRun } }) :=
    .span _ (by simp [hp]) (bump_le _) id
  have hturn : ∀ s : State, Act p s (quiet { s with turn := s.turn.setSettle }) := fun _ => .turn _ hp id
  refine (hspan.chain.quiet_trans (hturn _).chain).quiet_trans ?_
  unfold State.voidRound
  split
  · exact Act.chain (.tells _ fun c hc =>
      ⟨.spanUnsteady, Config.unsteadyRun, by simpa [records, Handed.streams, Handed.none] using hc⟩)
  · exact .refl

theorem collide_chain (hp : p = .outcome) (hpart : s.takesPart = true) : Chain p s s.collide := by
  unfold State.collide
  dsimp only
  have hspan : Chain p s (quiet { s with
      span := { s.span with settleCollision := min (s.span.settleCollision + 1) Config.collisionLimit } }) :=
    Act.chain (.span _ (by simp [hp]) id fun _ => Nat.min_le_right _ _)
  split
  · exact hspan.quiet_trans (duplicate_chain hp hpart)
  · exact hspan

theorem releaseCandidate_takesPart (s : State) : s.releaseCandidate.1.takesPart = s.takesPart := by
  rw [(State.releaseCandidate_frame s).1]
  rfl

theorem garbledRound_chain (collision : Bool) (hp : p = .outcome) (hpart : s.takesPart = true) : Chain p s (s.garbledRound collision) := by
  have hne : p ≠ .memory := by simp [hp]
  unfold State.garbledRound
  refine Chain.andThen (Chain.andThen ((voidRound_chain hp).andThen fun _ _ => releaseCandidate_chain hne) ?_) fun _ _ => endRound_chain hne
  rintro s' rfl
  split
  · exact collide_chain hp ((releaseCandidate_takesPart _).trans hpart)
  · exact .refl

theorem goodRound_chain (hp : p ≠ .memory) : Chain p s (quiet s.goodRound) :=
  Act.chain (.span _ hp (fun _ => Nat.zero_le _) fun _ => Nat.zero_le _)

theorem adopt_chain (st : Stamp) (n : Station) (hello : Option StationClass) (hp : p = .outcome) :
    Chain p s (quiet { s with turn := adopt s.turn st n hello }) := by
  refine Act.chain (.turn _ hp fun h => ?_)
  rw [adopt_repair]
  split
  · exact h
  · exact bump_le _ h

theorem goodParcel_counted (own : Bool) (w : ParcelWords) (hp : p = .outcome) (hpart : s.takesPart = true) :
    Counted p s (s.goodParcel own w) := by
  have hne : p ≠ .memory := by simp [hp]
  rw [← Effect.quiet_andThen s.goodRound fun _ => s.goodParcel own w]
  refine Counted.after (goodRound_chain hne) ?_
  unfold State.goodParcel
  dsimp only [quiet_fst]
  split
  · split
    · refine Counted.after (duplicate_chain hp hpart) ?_
      split
      · exact .inl .refl
      · exact afterParcel_counted _ _ hne
    · rename_i sender stamp _ _ _
      rw [← Effect.quiet_andThen { s.goodRound with turn := adopt s.goodRound.turn stamp sender _ } fun s' =>
        (s'.consume sender _ _).andThen fun s' => s'.broadcastSent.afterParcel _ (s'.askFor own _ sender _)]
      refine Counted.after (adopt_chain _ _ _ hp) (Counted.after (consume_chain _ _ _ hp) ?_)
      rw [← Effect.quiet_andThen (State.broadcastSent _) fun s' => s'.afterParcel _ _]
      exact Counted.after (broadcastSent_chain hp) (afterParcel_counted _ _ hne)
  · exact afterParcel_counted _ _ hne

theorem parcelOutcome_counted (settle : Bool) (sent : Option ParcelWords) (report : LineReport) (hpart : s.takesPart = true) :
    Counted .outcome s (s.parcelOutcome settle sent report) := by
  cases report with
  | empty => exact .inl (garbledRound_chain _ rfl hpart)
  | garbled => exact .inl (garbledRound_chain _ rfl hpart)
  | intact h0 h1 body => exact goodParcel_counted _ _ rfl hpart

theorem closing_counted (o : AnswerOutcome) : Counted .close s (closing s o) :=
  Counted.after ((settleCandidate_chain o).andThen fun _ _ => settleHolder_chain _) (.inr ⟨_, endRound_chain (by simp), rfl⟩)

theorem writes_chain (e : InboundEntry) {a : Access} (ending : AccessEnd) (h : s.path.state = .busy .apply a) :
    Chain .memory s (s.pathFallsFree.postEnds e ending) := (pathFallsFree_chain h).quiet_trans (postEnds_chain e ending rfl)

theorem reads_chain (e : InboundEntry) {a : Access} (ending : ReadEnd) (h : s.path.state = .busy .apply a) :
    Chain .memory s (s.pathFallsFree.fetchEnds e ending) := (pathFallsFree_chain h).quiet_trans (fetchEnds_chain e ending)

end Sys2Proof.Acts
end

section
/-! The transmit selector (01 section 1.3): what is offered at the round mark, and the freeze of it (R3, R4, R41, R42, R107, R138). -/

namespace Sys2Proof.Selector

open Sys2Proof.Machine Sys2Proof.Claims

/-! ## A member of a list at its place -/

/-- A place in a list is a member with those before it and those behind it. -/
theorem getElem?_eq_some_iff_append {α : Type} {l : List α} {i : Nat} {a : α} :
    l[i]? = some a ↔ ∃ older younger, l = older ++ a :: younger ∧ older.length = i := by
  constructor
  · intro h
    obtain ⟨hi, rfl⟩ := List.getElem?_eq_some_iff.mp h
    exact ⟨l.take i, l.drop (i + 1), by rw [← List.drop_eq_getElem_cons, List.take_append_drop],
      List.length_take_of_le hi.le⟩
  · rintro ⟨older, younger, rfl, rfl⟩
    simp

theorem modify_append_cons {α : Type} (f : α → α) (older younger : List α) (a : α) :
    (older ++ a :: younger).modify older.length f = older ++ f a :: younger := by
  rw [List.modify_eq_take_cons_drop (by simp)]
  simp

/-! ## Sets of stations -/

theorem has_single (m n : Station) : StationSet.has (StationSet.single m) n = decide (m = n) := by
  revert m n
  decide

theorem has_add (set : StationSet) (m n : Station) :
    StationSet.has (StationSet.add set m) n = (StationSet.has set n || decide (m = n)) := by
  rw [← has_single, StationSet.add, StationSet.has, BitVec.getLsbD_or]
  rfl

/-- The implicated set of a HALTED CONTAIN: the sources of the POSTs held (R138). -/
theorem has_postSources (s : State) (n : Station) :
    StationSet.has s.postSources n = true ↔ ∃ e ∈ s.inbound, e.source = n ∧ ∃ addr data, e.op = .post addr data := by
  have hfold : ∀ (q : List InboundEntry) (set : StationSet),
      StationSet.has (q.foldl (fun set e =>
        match e.op with
        | .post .. => StationSet.add set e.source
        | _ => set) set) n = true ↔
      StationSet.has set n = true ∨ ∃ e ∈ q, e.source = n ∧ ∃ addr data, e.op = .post addr data := by
    intro q
    induction q with
    | nil => simp
    | cons e q ih =>
      intro set
      rw [List.foldl_cons, ih]
      cases hop : e.op with
      | post addr data => simp [has_add, hop, or_assoc]
      | fetch => simp [hop]
      | signal => simp [hop]
  rw [State.postSources]
  refine (hfold s.inbound 0).trans ?_
  simp [StationSet.has]

/-! ## The oldest RETURN and the oldest eligible entry -/

theorem oldestReturn_eq_some_iff (s : State) (i : Nat) :
    s.oldestReturn = some i ↔ ∃ older r younger, s.returns = older ++ r :: younger ∧ older.length = i ∧
      (∀ x ∈ older, s.offersReturn x = false) ∧ s.offersReturn r = true := by
  rw [State.oldestReturn, List.findIdx?_eq_some_iff_getElem]
  constructor
  · rintro ⟨hi, hoffers, hno⟩
    obtain ⟨r, hr⟩ : ∃ r, s.returns[i] = r := ⟨_, rfl⟩
    rw [hr] at hoffers
    obtain ⟨older, younger, hsplit, hlength⟩ := getElem?_eq_some_iff_append.mp (List.getElem?_eq_some_iff.mpr ⟨hi, hr⟩)
    refine ⟨older, r, younger, hsplit, hlength, fun x hx => ?_, hoffers⟩
    obtain ⟨j, hj, rfl⟩ := List.mem_iff_getElem.mp hx
    have := hno j (hlength ▸ hj)
    simpa [hsplit, hj] using this
  · rintro ⟨older, r, younger, hsplit, rfl, hno, hoffers⟩
    refine ⟨by simp [hsplit], by simpa [hsplit] using hoffers, fun j hj => ?_⟩
    simpa [hsplit, hj] using hno _ (List.getElem_mem hj)

theorem oldestReturn_eq_none_iff (s : State) : s.oldestReturn = none ↔ ∀ x ∈ s.returns, s.offersReturn x = false :=
  List.findIdx?_eq_none_iff

theorem freeSlot?_isSome_iff (s : State) : s.freeSlot?.isSome = true ↔ ∃ k, (s.slot k).state = .free := by
  simp [State.freeSlot?]

/-- The lowest-numbered FREE slot (R42). -/
theorem freeSlot?_eq_some_iff (s : State) (k : SlotNo) :
    s.freeSlot? = some k ↔ (s.slot k).state = .free ∧ ∀ j, j < k → (s.slot j).state ≠ .free := by
  rw [State.freeSlot?, List.find?_eq_some_iff_getElem]
  simp only [beq_iff_eq, List.getElem_finRange, Bool.not_eq_true', beq_eq_false_iff_ne, ne_eq]
  constructor
  · rintro ⟨hfree, i, hi, rfl, hno⟩
    exact ⟨hfree, fun j hj => hno j.val hj⟩
  · rintro ⟨hfree, hno⟩
    exact ⟨hfree, k.val, by simp, rfl, fun j hj => hno ⟨j, by omega⟩ hj⟩

theorem eligible_append_cons {s : State} {older younger : List SendEntry} {e : SendEntry} (h : s.sendQueue = older ++ e :: younger) :
    s.eligible older.length = true ↔ Eligible s older e := by
  simp [State.eligible, h, Eligible, freeSlot?_isSome_iff, and_assoc, imp_iff_not_or]

theorem oldestEligible_eq_some_iff (s : State) (i : Nat) :
    s.oldestEligible = some i ↔ ∃ older e younger, s.sendQueue = older ++ e :: younger ∧ older.length = i ∧ Eligible s older e ∧
      ∀ a x b, older = a ++ x :: b → ¬ Eligible s a x := by
  rw [State.oldestEligible, List.find?_range_eq_some]
  constructor
  · rintro ⟨heligible, hi, hno⟩
    obtain ⟨older, younger, hsplit, hlength⟩ :=
      getElem?_eq_some_iff_append.mp (List.getElem?_eq_getElem (List.mem_range.mp hi))
    refine ⟨older, _, younger, hsplit, hlength, (eligible_append_cons hsplit).mp (hlength ▸ heligible), ?_⟩
    rintro a x b rfl
    rw [List.append_assoc] at hsplit
    rw [← eligible_append_cons hsplit]
    have hlt : a.length < i := by rw [← hlength]; simp
    simpa using hno _ hlt
  · rintro ⟨older, e, younger, hsplit, rfl, heligible, hno⟩
    refine ⟨(eligible_append_cons hsplit).mpr heligible, by simp [hsplit], fun j hj => ?_⟩
    obtain ⟨a, b, hab, rfl⟩ := getElem?_eq_some_iff_append.mp (List.getElem?_eq_getElem hj)
    have hsplit' : s.sendQueue = a ++ older[a.length] :: (b ++ e :: younger) := by
      rw [hsplit]
      conv_lhs => rw [hab]
      simp
    have := hno a _ b hab
    rw [← eligible_append_cons hsplit'] at this
    simpa using this

theorem oldestEligible_eq_none {s : State} (h : ∀ older e younger, s.sendQueue = older ++ e :: younger → ¬ Eligible s older e) :
    s.oldestEligible = none := by
  by_contra hne
  obtain ⟨i, hi⟩ := Option.ne_none_iff_exists'.mp hne
  obtain ⟨older, e, younger, hsplit, -, heligible, -⟩ := (oldestEligible_eq_some_iff s i).mp hi
  exact h older e younger hsplit heligible

/-! ## The freeze of what is offered -/

theorem freeze_ret {s : State} {older younger : List ReturnEntry} {r : ReturnEntry} (h : s.returns = older ++ r :: younger) :
    s.freeze (some (.ret older.length)) =
      { s with returns := older ++ { r with inFlight := true } :: younger }.call
        { source := .returnList, dest := destField r.requester, body := .ret ⟨r.tag.val, by omega⟩ r.result } := by
  have hget : s.returns[older.length]? = some r := getElem?_eq_some_iff_append.mpr ⟨older, younger, h, rfl⟩
  have hmodify : s.returns.modify older.length (fun r => { r with inFlight := true }) = older ++ { r with inFlight := true } :: younger := by
    rw [h, modify_append_cons]
  simp only [State.freeze, hget, hmodify]

theorem freeze_entry {s : State} {older younger : List SendEntry} {e : SendEntry} (h : s.sendQueue = older ++ e :: younger) :
    s.freeze (some (.entry older.length)) =
      { s with sendQueue := older ++ e.freeze s.freeSlot? :: younger }.call
        { source := .sendQueue, dest := destField e.dest, body := e.body (s.freeSlot?.getD 0) } := by
  have hget : s.sendQueue[older.length]? = some e := getElem?_eq_some_iff_append.mpr ⟨older, younger, h, rfl⟩
  have hmodify : s.sendQueue.modify older.length (fun e => e.freeze s.freeSlot?) = older ++ e.freeze s.freeSlot? :: younger := by
    rw [h, modify_append_cons]
  simp only [State.freeze, hget, hmodify]

/-- What a round mark freezes: nothing, the pending CONTAIN, the pending HELLO, a RETURN, or an entry (R3, R4). -/
inductive Freezes (s : State) : State → Prop
  | nothing : Freezes s s.listen
  | contain (p : PendingContain) : s.station = .active ∨ s.station = .contained → s.contain.pendingContain = some p →
      Freezes s (s.call { source := .contain, dest := destAll, body := s.containBody p })
  | hello : s.station = .active →
      Freezes s (s.call { source := .hello, dest := destAll, body := .hello s.cls s.policy })
  | ret (older younger : List ReturnEntry) (r : ReturnEntry) : s.station = .active ∨ s.station = .contained →
      s.returns = older ++ r :: younger →
      Freezes s ({ s with returns := older ++ { r with inFlight := true } :: younger }.call
        { source := .returnList, dest := destField r.requester, body := .ret ⟨r.tag.val, by omega⟩ r.result })
  | entry (older younger : List SendEntry) (e : SendEntry) : s.station = .active → s.sendQueue = older ++ e :: younger →
      Eligible s older e →
      Freezes s ({ s with sendQueue := older ++ e.freeze s.freeSlot? :: younger }.call
        { source := .sendQueue, dest := destField e.dest, body := e.body (s.freeSlot?.getD 0) })

theorem freeze_offer (s : State) : Freezes s (s.freeze s.offer) := by
  unfold State.offer
  split
  · exact .nothing
  split
  case isFalse => exact .nothing
  rename_i hstation
  split
  · exact .contain _ hstation ‹_›
  split
  · rename_i hhello
    exact .hello hhello.2
  split
  · obtain ⟨older, r, younger, hsplit, rfl, -, -⟩ := (oldestReturn_eq_some_iff s _).mp ‹_›
    rw [freeze_ret hsplit]
    exact .ret older younger r hstation hsplit
  split
  case isFalse => exact .nothing
  rename_i hactive
  cases hoffer : s.oldestEligible with
  | none => exact .nothing
  | some i =>
    obtain ⟨older, e, younger, hsplit, rfl, heligible, -⟩ := (oldestEligible_eq_some_iff s i).mp hoffer
    rw [Option.map_some, freeze_entry hsplit]
    exact .entry older younger e hactive hsplit heligible

/-! ## The round mark -/

theorem exec_roundMark {s : State} (hpart : s.takesPart = true) (hphase : s.span.phase = .none) :
    exec .roundMark s = .next (s.freeze s.offer) := by
  change execRoundMark s = _
  simp [execRoundMark, hpart, hphase]

theorem takesPart_of_selects {s : State} (h : Selects s) : s.takesPart = true := by
  obtain ⟨hheld, hstation, -, -⟩ := h
  rcases hstation with hs | hs <;> simp [State.takesPart, hheld, hs]

/-- With a CONTAIN pending the selector offers it (R4). -/
theorem offer_contain {s : State} (h : Selects s) {p : PendingContain} (hp : s.contain.pendingContain = some p) :
    s.offer = some (.contain p) := by
  obtain ⟨-, hstation, -, hbar⟩ := h
  simp [State.offer, hbar, hstation, hp]

theorem offer_hello {s : State} (h : Selects s) (hp : s.contain.pendingContain = none) (hhello : s.helloPending = true)
    (hactive : s.station = .active) : s.offer = some .hello := by
  obtain ⟨-, -, -, hbar⟩ := h
  simp [State.offer, hbar, hp, hhello, hactive]

/-- With no broadcast to send the oldest RETURN that may be offered comes first (R4, R107). -/
theorem offer_ret {s : State} (h : Selects s) (hp : s.contain.pendingContain = none)
    (hhello : s.helloPending = false ∨ s.station = .contained) {i : Nat} (hplace : s.oldestReturn = some i) :
    s.offer = some (.ret i) := by
  obtain ⟨-, hstation, -, hbar⟩ := h
  have hnot : ¬(s.helloPending = true ∧ s.station = .active) := by
    rintro ⟨hh, ha⟩
    rcases hhello with h | h <;> simp [h] at hh ha
  simp [State.offer, hbar, hstation, hp, hnot, hplace]

/-- Without one an ACTIVE station asks its send queue, and a CONTAINED one offers nothing (R4). -/
theorem offer_entry {s : State} (h : Selects s) (hp : s.contain.pendingContain = none)
    (hhello : s.helloPending = false ∨ s.station = .contained) (hno : ∀ x ∈ s.returns, s.offersReturn x = false) :
    s.offer = if s.station = .active then s.oldestEligible.map .entry else none := by
  obtain ⟨-, hstation, -, hbar⟩ := h
  have hnot : ¬(s.helloPending = true ∧ s.station = .active) := by
    rintro ⟨hh, ha⟩
    rcases hhello with h | h <;> simp [h] at hh ha
  simp [State.offer, hbar, hstation, hp, hnot, (oldestReturn_eq_none_iff s).mpr hno]

theorem exec_of_selects {s : State} (h : Selects s) {o : Option Offer} (ho : s.offer = o) : exec .roundMark s = .next (s.freeze o) := by
  obtain ⟨-, -, hphase, -⟩ := id h
  rw [exec_roundMark (takesPart_of_selects h) hphase, ho]

/-- Settles O34: the order from the lemmas on `State.offer`, each freeze by its lemma, and the implicated set from `has_postSources`. -/
theorem selectorOffersInOrder : Obligations.SelectorOffersInOrder := by
  intro s
  refine ⟨?contain, ?hello, ?ret, ?nothing, ?silent⟩
  case contain =>
    intro p hsel hp
    refine ⟨exec_of_selects hsel (offer_contain hsel hp), fun hmode => by simp [State.containBody, hmode], fun hmode => ?_⟩
    exact ⟨s.postSources, by simp [State.containBody, hmode], has_postSources s⟩
  case hello =>
    intro hsel hp hhello hactive
    exact exec_of_selects hsel (offer_hello hsel hp hhello hactive)
  case ret =>
    intro older r younger hsel hp hhello hsplit hno hoffers
    have hplace : s.oldestReturn = some older.length :=
      (oldestReturn_eq_some_iff s _).mpr ⟨older, r, younger, hsplit, rfl, hno, hoffers⟩
    rw [exec_of_selects hsel (offer_ret hsel hp hhello hplace), freeze_ret hsplit]
    rfl
  case nothing =>
    intro hsel hp hcontained hno
    rw [exec_of_selects hsel (offer_entry hsel hp (.inr hcontained) hno), if_neg (by simp [hcontained])]
    rfl
  case silent =>
    intro hpart hphase hsilent
    have hoffer : s.offer = none := by
      rcases hsilent with h | h <;> simp [State.offer, h]
    rw [exec_roundMark hpart hphase, hoffer]
    rfl

/-- Settles O35: the entry from `oldestEligible_eq_some_iff` and its freeze from `freeze_entry`, the slot from `freeSlot?_eq_some_iff`. -/
theorem oldestEligibleEntryIsOffered : Obligations.OldestEligibleEntryIsOffered := by
  intro s hsel hactive hp hhello hno
  have hmark : exec .roundMark s = .next (s.freeze (s.oldestEligible.map .entry)) := by
    rw [exec_of_selects hsel (offer_entry hsel hp (.inl hhello) hno), if_pos hactive]
  refine ⟨fun older e younger hsplit heligible hfirst => ?_, fun hnone => ?_, freeSlot?_eq_some_iff s⟩
  · have hplace := (oldestEligible_eq_some_iff s older.length).mpr ⟨older, e, younger, hsplit, rfl, heligible, hfirst⟩
    rw [hmark, hplace, Option.map_some, freeze_entry hsplit]
    rfl
  · rw [hmark, oldestEligible_eq_none hnone]
    rfl

end Sys2Proof.Selector
end

section
/-! The budget (10 section 10.4): a request is counted once, in the send queue, in a slot or in the completion queue, and every act passes it on
or ends it (R38, R40, R78, R88, R94, R172). -/

namespace Sys2Proof.Budget

open Sys2Proof.Machine Sys2Proof.Safety Sys2Proof.Events Sys2Proof.Acts Sys2Proof.Selector

/-! ## Records told, in the queue or on their way to it -/

/-- The records that meet `q`, in the completion queue or handed on to it. -/
def told (q : Completion → Bool) (e : Effect) : Nat := e.1.completions.countP q + (records e.2).countP q

theorem countP_records_add (q : Completion → Bool) (a b : Handed) :
    (records (a.add b)).countP q = (records a).countP q + (records b).countP q := by
  rw [(records_add_perm a b).countP_eq, List.countP_append]

/-- The hand-on keeps a count to which a record adds by itself alone (R176). -/
theorem countP_done {q : Completion → Bool}
    (hpush : ∀ l c, (push l c).countP q = l.countP q + bitOf (q c)) (e : Effect) : e.done.completions.countP q = told q e := by
  obtain ⟨-, order, hperm, horder⟩ := State.handOn_spec e.1 e.2.streams
  have hfold : ∀ g l : List Completion, (g.foldl push l).countP q = l.countP q + g.countP q := by
    intro g
    induction g with
    | nil => simp
    | cons c g ih =>
      intro l
      rw [List.foldl_cons, ih, hpush, List.countP_cons, bitOf]
      omega
  have hrecords : order.flatten.countP q = (records e.2).countP q := by
    rw [(List.Perm.flatten hperm).countP_eq]
    rfl
  rw [Effect.done, horder, hfold, hrecords]
  rfl

theorem unreadRequests_done (e : Effect) : e.done.unreadRequests = told Completion.isRequest e := countP_done countP_isRequest_push e

variable {p : Part} {s : State} {e : Effect}

/-- An act hands its records on, and leaves the completion queue to the event's end (R176). -/
theorem act_completions (h : Act p s e) : e.1.completions = s.completions := by
  cases h with
  | fault r => simp
  | slotLands t data =>
    rcases State.askLanding_cases (s.setSlot t { s.slot t with state := .landing, timer := .stopped, deferred := false }) t
      (.write (s.slot t).landing data) with ⟨-, h⟩ | ⟨-, h⟩ <;> simp [State.land, h]
  | _ => rfl

/-! ## Slots in use -/

theorem slotsInUse_eq (s : State) : s.slotsInUse = (List.finRange 8).countP fun t => (s.slot t).state != .free := by
  have h : s.slots.toList = (List.finRange 8).map s.slot := by
    refine List.ext_getElem (by simp) fun i hi hi' => ?_
    simp [State.slot]
  rw [State.slotsInUse, h, List.countP_map]
  rfl

/-- Replacing one slot changes the count by that slot alone. -/
theorem slotsInUse_setSlot (s : State) (t : SlotNo) (f : FetchSlot) :
    (s.setSlot t f).slotsInUse + bitOf ((s.slot t).state != .free) = s.slotsInUse + bitOf (f.state != .free) := by
  have hpos : (s.slot t).state ≠ .free → 0 < s.slotsInUse := fun h => by
    rw [slotsInUse_eq, List.countP_pos_iff]
    exact ⟨t, List.mem_finRange t, by simpa using h⟩
  have hset : (s.setSlot t f).slotsInUse =
      (s.slotsInUse - if (s.slot t).state != .free then 1 else 0) + if f.state != .free then 1 else 0 := by
    rw [State.slotsInUse, State.setSlot_slots, Vector.toList_set, List.countP_set (by simp)]
    rfl
  rw [hset, bitOf, bitOf]
  by_cases h : (s.slot t).state = .free
  · simp [h]
  · have := hpos h
    simp only [bne_iff_ne, ne_eq, h, not_false_eq_true, if_true]
    omega

theorem slotsInUse_congr {t : State} (h : t.slots = s.slots) : t.slotsInUse = s.slotsInUse := by simp [State.slotsInUse, h]

/-- Every slot that fails has its record (R87 to R89). -/
theorem slotsInUse_failAwaiting (which : FetchSlot → Bool) (status : Status) :
    (s.failAwaiting which status).1.slotsInUse + (records (s.failAwaiting which status).2).length = s.slotsInUse := by
  have hrecords : records (s.failAwaiting which status).2 = (List.finRange 8).filterMap fun t =>
      if (s.slot t).state == .awaiting && which (s.slot t) then some ((s.slot t).record status) else none := by
    simp [records, State.failAwaiting, Handed.streams, Handed.none]
  rw [hrecords, slotsInUse_eq, slotsInUse_eq]
  generalize List.finRange 8 = l
  induction l with
  | nil => rfl
  | cons t l ih =>
    rw [List.countP_cons, List.countP_cons, List.filterMap_cons, State.failAwaiting_slot]
    by_cases hfail : ((s.slot t).state == .awaiting && which (s.slot t)) = true
    · have hstate : (s.slot t).state = .awaiting := by simp_all
      have hused : ((s.slot t).state != .free) = true := by simp [hstate]
      rw [if_pos hfail, if_pos hfail, if_pos hused, if_neg (by simp [freeSlot]), List.length_cons]
      omega
    · rw [Bool.not_eq_true] at hfail
      simp only [hfail, Bool.false_eq_true, if_false]
      omega

/-! ## The load -/

/-- The requests that the budget counts, among them those whose record is on its way (R172). -/
def load (e : Effect) : Nat := e.1.sendQueue.length + e.1.slotsInUse + told Completion.isRequest e

theorem budgetSum_done (e : Effect) : e.done.budgetSum = load e := by
  rw [State.budgetSum, unreadRequests_done]
  rfl

theorem countP_isRequest_of_notices {l : List Completion} (h : ∀ c ∈ l, ∃ k arg, c = notice k arg) : l.countP Completion.isRequest = 0 := by
  rw [List.countP_eq_zero]
  intro c hc
  obtain ⟨k, arg, rfl⟩ := h c hc
  simp [notice, Completion.isRequest]

/-- What an act leaves of the load, in the send queue, in the slots and in the records it hands on, was there before it. -/
theorem act_spends (h : Act p s e) :
    e.1.sendQueue.length ≤ s.sendQueue.length ∧ e.1.inbound.length ≤ s.inbound.length ∧
      e.1.sendQueue.length + e.1.slotsInUse + (records e.2).countP Completion.isRequest ≤ s.sendQueue.length + s.slotsInUse := by
  have hquiet : ∀ {t : State}, t.sendQueue.length = s.sendQueue.length → t.inbound.length ≤ s.inbound.length → t.slots = s.slots →
      (t.sendQueue.length ≤ s.sendQueue.length ∧ t.inbound.length ≤ s.inbound.length ∧
        t.sendQueue.length + t.slotsInUse + 0 ≤ s.sendQueue.length + s.slotsInUse) := fun hq hi hs =>
    ⟨hq.le, hi, by rw [hq, slotsInUse_congr hs]; omega⟩
  have hslot : ∀ (t : SlotNo) (f : FetchSlot) (h : Handed), (s.slot t).state ≠ .free →
      (records h).countP Completion.isRequest + bitOf (f.state != .free) ≤ 1 →
      s.sendQueue.length + (s.setSlot t f).slotsInUse + (records h).countP Completion.isRequest ≤ s.sendQueue.length + s.slotsInUse := by
    intro t f h hused hone
    have hset := slotsInUse_setSlot s t f
    have : bitOf ((s.slot t).state != .free) = 1 := by simp [bitOf, hused]
    omega
  cases h with
  | fault r => exact hquiet (by simp) (by simp) (by simp)
  | releases f hf => exact hquiet (by simp) le_rfl rfl
  | leaves keep groups hreq hlen =>
    have hrecords : records { Handed.none with sendQueue := groups } = groups.flatten := by
      simp [records, Handed.streams, Handed.none]
    refine ⟨List.length_filter_le _ _, le_rfl, ?_⟩
    rw [hrecords, List.countP_eq_length.mpr hreq]
    show (s.sendQueue.filter keep).length + s.slotsInUse + _ ≤ _
    omega
  | fetches e addr length landing t hflight hop =>
    have hlt := removeInFlight_lt hflight
    have hset := slotsInUse_setSlot s.removeInFlight t
      { state := .awaiting, dest := e.dest, landing := landing, length := length, cookie := e.cookie, held := none
        timer := .running s.removeInFlight.fetchTimeout, deferred := false }
    have hsame : s.removeInFlight.slotsInUse = s.slotsInUse := rfl
    refine ⟨hlt.le, le_rfl, ?_⟩
    change s.removeInFlight.sendQueue.length + (s.removeInFlight.setSlot _ _).slotsInUse + 0 ≤ _
    simp [bitOf] at hset
    omega
  | slotsFail which status =>
    refine ⟨le_rfl, le_rfl, ?_⟩
    have hfail := slotsInUse_failAwaiting (s := s) which status
    have hcount := List.countP_le_length (p := Completion.isRequest) (l := records (s.failAwaiting which status).2)
    change s.sendQueue.length + _ + _ ≤ _
    omega
  | slotEnds t status hstate =>
    refine ⟨le_rfl, le_rfl, hslot t freeSlot _ (by rcases hstate with h | h <;> simp [h]) ?_⟩
    simp [State.endFetch, records, Handed.streams, Handed.none, freeSlot, bitOf, FetchSlot.record, Completion.isRequest]
  | slotKept t f hstate _ =>
    refine ⟨le_rfl, le_rfl, hslot t f .none (by simp [hstate]) ?_⟩
    simp only [records_none, List.countP_nil, bitOf]
    split <;> omega
  | slotLands t data hstate =>
    have := hslot t { s.slot t with state := .landing, timer := .stopped, deferred := false } .none (by simp [hstate]) (by simp [bitOf])
    rcases State.askLanding_cases (s.setSlot t { s.slot t with state := .landing, timer := .stopped, deferred := false }) t
      (.write (s.slot t).landing data) with ⟨-, h⟩ | ⟨-, h⟩ <;> simp only [State.land, h] <;> exact ⟨le_rfl, le_rfl, this⟩
  | inbound q hlen _ _ => exact hquiet rfl hlen rfl
  | raises n source =>
    refine ⟨le_rfl, le_rfl, ?_⟩
    have hnone : (records (s.raiseSignal n source).2).countP Completion.isRequest = 0 := by
      simp only [State.raiseSignal, SignalEntry.raiseNotice]
      split <;> simp [records, Handed.streams, Handed.none, Completion.isRequest]
    rw [hnone]
    exact (hquiet (t := (s.raiseSignal n source).1) rfl le_rfl rfl).2.2
  | tells h hnotices =>
    refine ⟨le_rfl, le_rfl, ?_⟩
    rw [countP_isRequest_of_notices hnotices]
    exact le_rfl
  | _ => exact hquiet rfl le_rfl rfl

/-- What a chain leaves of the load was there before it. -/
theorem chain_spends (h : Chain p s e) :
    e.1.sendQueue.length ≤ s.sendQueue.length ∧ e.1.inbound.length ≤ s.inbound.length ∧ load e ≤ s.budgetSum := by
  refine h.keeps (Law := fun e => e.1.sendQueue.length ≤ s.sendQueue.length ∧ e.1.inbound.length ≤ s.inbound.length ∧
    load e ≤ s.budgetSum) ?_ ⟨le_rfl, le_rfl, le_rfl⟩
  rintro e e' hact ⟨hsend, hinbound, hload⟩
  obtain ⟨hsend', hinbound', hspends⟩ := act_spends hact
  refine ⟨hsend'.trans hsend, hinbound'.trans hinbound, le_trans ?_ hload⟩
  have hcompletions := act_completions hact
  simp only [load, told, countP_records_add, hcompletions]
  omega

/-! ## The bounds -/

theorem capacity_of_spends {t : State} (h : t.sendQueue.length ≤ s.sendQueue.length ∧ t.inbound.length ≤ s.inbound.length ∧
    t.budgetSum ≤ s.budgetSum) (hs : Capacity s) : Capacity t :=
  ⟨h.1.trans hs.1, h.2.1.trans hs.2.1, h.2.2.trans hs.2.2⟩

theorem capacity_of_chain (h : Chain p s e) (hs : Capacity s) : Capacity e.done := by
  refine capacity_of_spends ?_ hs
  rw [budgetSum_done]
  exact chain_spends h

/-- The end of a counted round leaves the queues and the slots. -/
theorem capacity_countRound (hs : Capacity s) : Capacity s.countRound := by
  rcases s.countRound_cases with ⟨-, h⟩ | ⟨-, -, h⟩ | ⟨-, -, h⟩ <;> rw [h] <;> exact hs

theorem done_countRound (e : Effect) : Effect.done (e.1.countRound, e.2) = e.done.countRound := by
  rcases e.1.countRound_cases with ⟨hs, h⟩ | ⟨hs, hj, h⟩ | ⟨hs, hj, h⟩
  · rw [h]
    exact (((e.1.handOn e.2.streams).countRound_cases.resolve_right (by simp [hs])).2).symm
  · rcases e.done.countRound_cases with ⟨hs', -⟩ | ⟨-, -, h'⟩ | ⟨-, hj', -⟩
    · exact absurd hs hs'
    · rw [h, h']; rfl
    · exact absurd hj (Nat.not_lt.mpr hj')
  · rcases e.done.countRound_cases with ⟨hs', -⟩ | ⟨-, hj', -⟩ | ⟨-, -, h'⟩
    · exact absurd hs hs'
    · exact absurd hj' (Nat.not_lt.mpr hj)
    · rw [h, h']; rfl

theorem capacity_of_counted (h : Counted p s e) (hs : Capacity s) : Capacity e.done := by
  rcases h with h | ⟨e', h, rfl⟩
  · exact capacity_of_chain h hs
  · rw [done_countRound]
    exact capacity_countRound (capacity_of_chain h hs)

/-- A station that a reset has emptied holds nothing that the bounds count (R92, R115, R182). -/
theorem capacity_of_empty (hsend : s.sendQueue = []) (hinbound : s.inbound = []) (hslots : s.slots = slotsReset)
    (hcompletions : s.completions = []) : Capacity s := by
  have hfree : s.slotsInUse = 0 := by
    rw [State.slotsInUse, hslots]
    decide
  have hsum : s.budgetSum = 0 := by simp [State.budgetSum, hfree, State.unreadRequests, hsend, hcompletions]
  exact ⟨by simp [hsend], by simp [hinbound], by simp [hsum]⟩

theorem capacity_freeze (hs : Capacity s) : Capacity (s.freeze s.offer) := by
  have hfreezes := freeze_offer s
  generalize s.freeze s.offer = t at hfreezes ⊢
  cases hfreezes with
  | entry older younger e hactive hsplit _ =>
    refine capacity_of_spends (s := s) ?_ hs
    have : (older ++ e.freeze s.freeSlot? :: younger).length = s.sendQueue.length := by simp [hsplit]
    exact ⟨this.le, le_rfl, Nat.add_le_add_right (Nat.add_le_add_right this.le _) _⟩
  | _ => exact hs

/-- An admitted request finds a place in the send queue and in the budget (R38, R170, R172). -/
theorem capacity_queues {d : Station} {x : SendEntry} {port : NodePort} (hroom : s.roomCheck d = none) (hs : Capacity s) :
    Capacity { s with sendQueue := s.sendQueue ++ [x], port := port } := by
  obtain ⟨-, hinbound, -⟩ := hs
  unfold State.roomCheck at hroom
  split at hroom
  · cases hroom
  split at hroom
  · cases hroom
  split at hroom
  · cases hroom
  split at hroom
  · cases hroom
  rename_i hsend hbudget
  have hlength : (s.sendQueue ++ [x]).length = s.sendQueue.length + 1 := by simp
  refine ⟨?_, hinbound, ?_⟩
  · show (s.sendQueue ++ [x]).length ≤ _
    omega
  · have : State.budgetSum { s with sendQueue := s.sendQueue ++ [x], port := port } = s.budgetSum + 1 := by
      show (s.sendQueue ++ [x]).length + s.slotsInUse + s.unreadRequests = s.sendQueue.length + s.slotsInUse + s.unreadRequests + 1
      omega
    omega

/-- An effect that leaves the queues and the slots, and hands on no request record. -/
theorem capacity_of_told (hsend : e.1.sendQueue = s.sendQueue) (hinbound : e.1.inbound = s.inbound) (hslots : e.1.slots = s.slots)
    (hcompletions : e.1.completions = s.completions) (hnone : (records e.2).countP Completion.isRequest = 0) (hs : Capacity s) :
    Capacity e.done := by
  refine capacity_of_spends ⟨(congrArg List.length hsend).le, (congrArg List.length hinbound).le, ?_⟩ hs
  rw [budgetSum_done, load, told, hnone, hsend, hcompletions, slotsInUse_congr hslots]
  exact le_rfl

/-- SET_MASK hands on signal notices, which the budget does not count (R121, R172). -/
theorem capacity_applyMask (mask : BitVec 16) (hs : Capacity s) : Capacity (s.applyMask mask).done := by
  have hnone : (records (s.applyMask mask).2).countP Completion.isRequest = 0 := by
    have hrecords : records (s.applyMask mask).2 = s.maskNotices mask := by
      simp [records, State.applyMask, Handed.streams, Handed.none]
    rw [hrecords, List.countP_eq_zero]
    intro c hc
    obtain ⟨n, -, hn⟩ := List.mem_filterMap.mp hc
    split at hn
    · obtain ⟨f, -, rfl⟩ := Option.map_eq_some_iff.mp hn
      simp [Completion.isRequest]
    · cases hn
  exact capacity_of_told rfl rfl rfl rfl hnone hs

theorem capacity_happens {c : Instr} {t : State} (h : Happens s c t) (hl : LandingAgrees s) (hs : Capacity s) : Capacity t := by
  cases h with
  | asserts => exact capacity_of_spends (s := s) ⟨(List.length_map _).le, le_rfl, by
      show (s.sendQueue.map _).length + s.slotsInUse + s.unreadRequests ≤ _
      rw [List.length_map]
      exact le_rfl⟩ hs
  | releases straps => exact capacity_of_empty rfl rfl rfl rfl
  | marks => exact capacity_freeze hs
  | yields picture => exact capacity_of_chain (yields_chain picture _) hs
  | idles => exact capacity_countRound hs
  | outcome settle sent report _ hpart _ => exact capacity_of_counted (parcelOutcome_counted settle sent report hpart) hs
  | takesReturn asked driven k result _ _ _ _ hawaiting =>
    refine capacity_of_spends (s := s) ⟨le_rfl, le_rfl, ?_⟩ hs
    have hset := slotsInUse_setSlot s k { s.slot k with state := .holding, held := some result }
    simp [bitOf, hawaiting] at hset
    exact Nat.add_le_add_right (Nat.add_le_add_left hset.le _) _
  | takesEntry asked driven e _ _ _ _ hroom _ =>
    obtain ⟨hsend, -, hbudget⟩ := hs
    refine ⟨hsend, ?_, hbudget⟩
    show (s.inbound ++ [e]).length ≤ 16
    simpa using hroom
  | closes ask driven o => exact capacity_of_counted (closing_counted o) hs
  | expires t => exact capacity_of_chain (expires_chain s t) hs
  | writes e rest a ending _ hstate _ _ => exact capacity_of_chain (writes_chain e ending hstate) hs
  | reads e rest a ending _ hstate _ _ => exact capacity_of_chain (reads_chain e ending hstate) hs
  | lands t a status hheld hstate =>
    have hlanding : (s.slot t).state = .landing := ((hl hheld).2 t).mpr (by simp [landings, hstate])
    refine capacity_of_spends (s := s) ?_ hs
    rw [budgetSum_done, State.pathFallsFree_frame]
    refine ⟨le_rfl, le_rfl, ?_⟩
    have hset := slotsInUse_setSlot s t freeSlot
    have hone : (records (s.endFetch t status).2).countP Completion.isRequest = 1 := by
      simp [State.endFetch, records, Handed.streams, Handed.none, FetchSlot.record, Completion.isRequest]
    have hused : bitOf ((s.slot t).state != .free) = 1 := by simp [bitOf, hlanding]
    have hfree : bitOf (freeSlot.state != .free) = 0 := rfl
    show s.sendQueue.length + (s.setSlot t freeSlot).slotsInUse +
      (s.unreadRequests + (records (s.endFetch t status).2).countP Completion.isRequest) ≤ s.budgetSum
    have : s.budgetSum = s.sendQueue.length + s.slotsInUse + s.unreadRequests := rfl
    omega
  | frees a => rw [State.pathFallsFree_frame]; exact hs
  | queues k d port _ _ _ _ hroom => exact capacity_queues (x := s.port.entry k d) (port := port) hroom hs
  | joins config => exact hs
  | restarts port => exact capacity_of_empty rfl rfl rfl rfl
  | masks mask port =>
    have := capacity_applyMask mask hs
    exact this
  | pops record rest port _ hcompletions =>
    refine capacity_of_spends (s := s) ?_ hs
    have hrest : rest.countP Completion.isRequest ≤ s.unreadRequests := by
      rw [State.unreadRequests, hcompletions, List.countP_cons]
      omega
    have hsum : s.sendQueue.length + s.slotsInUse + rest.countP Completion.isRequest ≤ s.budgetSum := Nat.add_le_add_left hrest _
    cases record with
    | request => exact ⟨le_rfl, le_rfl, hsum⟩
    | signal => exact ⟨le_rfl, le_rfl, hsum⟩
    | station => exact ⟨le_rfl, le_rfl, hsum⟩
  | _ => exact hs

/-- Settles O11: every command keeps the bounds, act by act (`act_spends`). -/
theorem budgetKept : Obligations.BudgetKept := by
  intro s t hl hs hstep
  rcases step_happens hstep with rfl | ⟨c, rest, h⟩
  · exact hs
  · exact capacity_happens h hl hs

end Sys2Proof.Budget
end

section
/-! The notices in the completion queue (07 section 7.4, 10 sections 10.6 and 10.7): one station notice of a kind, and one signal notice exactly
while its signal is UNREAD (R116 to R121, R174, R178). -/

namespace Sys2Proof.Notices

open Sys2Proof.Machine Sys2Proof.Safety Sys2Proof.Events Sys2Proof.Acts Sys2Proof.Budget Sys2Proof.Selector

variable {p : Part} {s : State} {e : Effect}

/-! ## What an event does to the completion queue -/

theorem chain_completions (h : Chain p s e) : e.1.completions = s.completions :=
  h.keeps (Law := fun e => e.1.completions = s.completions) (fun _ _ hact hlaw => (act_completions hact).trans hlaw) rfl

theorem done_completions (e : Effect) : ∃ g : List Completion, e.done.completions = g.foldl push e.1.completions := ⟨_, rfl⟩

theorem chain_pushes (h : Chain p s e) : ∃ g : List Completion, e.done.completions = g.foldl push s.completions :=
  chain_completions h ▸ done_completions e

theorem countRound_completions (s : State) : s.countRound.completions = s.completions := by
  rcases s.countRound_cases with ⟨-, h⟩ | ⟨-, -, h⟩ | ⟨-, -, h⟩ <;> rw [h]

theorem counted_pushes (h : Counted p s e) : ∃ g : List Completion, e.done.completions = g.foldl push s.completions := by
  rcases h with h | ⟨e', h, rfl⟩
  · exact chain_pushes h
  · rw [done_countRound, countRound_completions]
    exact chain_pushes h

theorem readingOf_completions (s : State) (c : Completion) : (s.readingOf c).completions = s.completions := by cases c <;> rfl

theorem freeze_completions (s : State) : (s.freeze s.offer).completions = s.completions := by
  have h := freeze_offer s
  generalize s.freeze s.offer = t at h ⊢
  cases h <;> rfl

/-- Records join the queue by `push`, a TAKE pops the oldest, and a reset empties it. -/
theorem happens_completions {c : Instr} {t : State} (h : Happens s c t) :
    (∃ g : List Completion, t.completions = g.foldl push s.completions) ∨ t.completions <:+ s.completions := by
  have hsame : t.completions = s.completions → (∃ g : List Completion, t.completions = g.foldl push s.completions) ∨ t.completions <:+ s.completions :=
    fun h => .inl ⟨[], h⟩
  cases h with
  | releases => exact .inr (List.nil_suffix)
  | restarts => exact .inr (List.nil_suffix)
  | marks => exact hsame (freeze_completions s)
  | yields picture => exact .inl (chain_pushes (yields_chain picture _))
  | idles => exact hsame (countRound_completions _)
  | outcome settle sent report _ hpart _ => exact .inl (counted_pushes (parcelOutcome_counted settle sent report hpart))
  | closes ask driven o => exact .inl (counted_pushes (closing_counted o))
  | expires t => exact .inl (chain_pushes (expires_chain s t))
  | writes x rest a ending _ hstate => exact .inl (chain_pushes (writes_chain x ending hstate))
  | reads x rest a ending _ hstate => exact .inl (chain_pushes (reads_chain x ending hstate))
  | lands t a status => rw [State.pathFallsFree_frame]; exact .inl (done_completions _)
  | frees => exact hsame (by rw [State.pathFallsFree_frame])
  | masks mask => exact .inl (done_completions (s.applyMask mask))
  | pops record rest port _ hc =>
    refine .inr ?_
    show (State.readingOf _ record).completions <:+ _
    rw [readingOf_completions, hc]
    exact List.suffix_cons record rest
  | _ => exact hsame rfl

/-! ## Station notices -/

theorem countP_isNotice_push (q : List Completion) (c : Completion) (k : NoticeKind)
    (h : q.countP (Completion.isNotice k) ≤ 1) : (push q c).countP (Completion.isNotice k) ≤ 1 := by
  cases c with
  | request => simpa [Completion.isNotice] using h
  | signal => simpa [Completion.isNotice] using h
  | station k' n a =>
    by_cases hany : q.any (Completion.isNotice k') = true
    · rw [push_notice_again q k' n a hany, List.countP_map]
      simpa only [Function.comp_def, coalesce_isNotice] using h
    · rw [push_notice_new q k' n a (by simpa using hany), List.countP_append, List.countP_singleton]
      by_cases hk : k' = k
      · subst hk
        have : q.countP (Completion.isNotice k') = 0 := by
          rw [List.countP_eq_zero]
          simpa using hany
        rw [this]
        split <;> omega
      · simpa [Completion.isNotice, hk] using h

theorem noticesOnce_happens {c : Instr} {t : State} (h : Happens s c t) (hs : NoticesOnce s) : NoticesOnce t := by
  intro k
  rcases happens_completions h with ⟨g, hg⟩ | hsuffix
  · rw [hg]
    clear hg
    induction g using List.reverseRecOn with
    | nil => exact hs k
    | append_singleton g c ih =>
      rw [List.foldl_append]
      exact countP_isNotice_push _ c k ih
  · exact (hsuffix.sublist.countP_le).trans (hs k)

/-! ## Signal notices -/

/-- The signal table agrees with the notices in the queue and those on their way to it. -/
def SignalsTold (e : Effect) : Prop :=
  ∀ n, SignalForm (e.1.signalOf n) ∧ told (Completion.isSignal n) e = (if (e.1.signalOf n).notice = .unread then 1 else 0) ∧
    ∀ f, (Completion.signal n f ∈ e.1.completions ∨ Completion.signal n f ∈ records e.2) → (e.1.signalOf n).first = some f

theorem mem_signal_done (n : SignalNo) (f : Station) (e : Effect) :
    Completion.signal n f ∈ e.done.completions ↔ Completion.signal n f ∈ e.1.completions ∨ Completion.signal n f ∈ records e.2 := by
  obtain ⟨-, order, hperm, horder⟩ := State.handOn_spec e.1 e.2.streams
  have hfold : ∀ g l : List Completion, Completion.signal n f ∈ g.foldl push l ↔ Completion.signal n f ∈ l ∨ Completion.signal n f ∈ g := by
    intro g
    induction g with
    | nil => simp
    | cons c g ih =>
      intro l
      rw [List.foldl_cons, ih, mem_signal_push, List.mem_cons, or_assoc, @eq_comm _ c]
  rw [Effect.done, horder, hfold, (List.Perm.flatten hperm).mem_iff]
  rfl

theorem signalsAgree_done (h : SignalsTold e) : SignalsAgree e.done := by
  intro n
  obtain ⟨hform, htold, hfirst⟩ := h n
  refine ⟨hform, ?_, fun f hf => hfirst f ((mem_signal_done n f e).mp hf)⟩
  rw [countP_done (countP_isSignal_push n), htold]
  rfl

theorem signalsTold_quiet : SignalsTold (quiet s) ↔ SignalsAgree s := by
  simp [SignalsTold, SignalsAgree, told]
  rfl

/-- Without an episode that is UNREAD no notice of the signal is told. -/
theorem not_mem_of_told {n : SignalNo} (h : told (Completion.isSignal n) e = 0) (f : Station) :
    Completion.signal n f ∉ e.1.completions ∧ Completion.signal n f ∉ records e.2 := by
  obtain ⟨hqueue, hrecords⟩ : e.1.completions.countP (Completion.isSignal n) = 0 ∧ (records e.2).countP (Completion.isSignal n) = 0 := by
    unfold told at h
    omega
  rw [List.countP_eq_zero] at hqueue hrecords
  exact ⟨fun hf => hqueue _ hf (by simp [Completion.isSignal]), fun hf => hrecords _ hf (by simp [Completion.isSignal])⟩

/-- An act raises a signal, or leaves the signal table and hands on no signal notice. -/
theorem act_signals (h : Act p s e) :
    (e.1.signals = s.signals ∧ ∀ c ∈ records e.2, ∀ n, c.isSignal n = false) ∨ ∃ n source, e = s.raiseSignal n source := by
  have hrequests : ∀ l : List Completion, (∀ c ∈ l, c.isRequest = true) → ∀ c ∈ l, ∀ n, c.isSignal n = false := by
    intro l hl c hc n
    have := hl c hc
    cases c <;> simp_all [Completion.isRequest, Completion.isSignal]
  cases h with
  | raises n source => exact .inr ⟨n, source, rfl⟩
  | fault r => exact .inl ⟨by simp, by simp⟩
  | leaves keep groups hreq _ =>
    have hrecords : records { Handed.none with sendQueue := groups } = groups.flatten := by
      simp [records, Handed.streams, Handed.none]
    exact .inl ⟨rfl, hrecords ▸ hrequests _ hreq⟩
  | slotsFail which status =>
    refine .inl ⟨rfl, hrequests _ fun c hc => ?_⟩
    simp only [records, State.failAwaiting, Handed.streams, Handed.none, List.flatten_cons, List.flatten_nil, List.append_nil,
      List.nil_append, List.mem_filterMap] at hc
    obtain ⟨t, -, ht⟩ := hc
    split at ht
    · exact Option.some.inj ht ▸ rfl
    · cases ht
  | slotEnds t status _ =>
    refine .inl ⟨rfl, hrequests _ fun c hc => ?_⟩
    have : c = (s.slot t).record status := by simpa [records, State.endFetch, Handed.streams, Handed.none] using hc
    exact this ▸ rfl
  | slotLands t data =>
    refine .inl ⟨?_, by simp⟩
    rcases State.askLanding_cases (s.setSlot t { s.slot t with state := .landing, timer := .stopped, deferred := false }) t
      (.write (s.slot t).landing data) with ⟨-, h⟩ | ⟨-, h⟩ <;> simp [State.land, h]
  | tells h hnotices =>
    refine .inl ⟨rfl, fun c hc n => ?_⟩
    obtain ⟨k, arg, rfl⟩ := hnotices c hc
    rfl
  | _ => exact .inl ⟨rfl, by simp⟩

/-- A record that is no signal notice tells nothing of a signal. -/
theorem signalsTold_of_silent {e' : Effect} (hcompletions : e'.1.completions = e.1.completions) (hsignals : e'.1.signals = e.1.signals)
    (hsilent : ∀ c ∈ records e'.2, ∀ n, c.isSignal n = false) (h : SignalsTold e) : SignalsTold (e'.1, e.2.add e'.2) := by
  intro n
  have hentry : e'.1.signalOf n = e.1.signalOf n := by simp [State.signalOf, hsignals]
  have hnone : (records e'.2).countP (Completion.isSignal n) = 0 := by
    rw [List.countP_eq_zero]
    intro c hc
    simp [hsilent c hc n]
  have htold : told (Completion.isSignal n) (e'.1, e.2.add e'.2) = told (Completion.isSignal n) e := by
    simp only [told, countP_records_add, hcompletions, hnone, Nat.add_zero]
  have hmem : ∀ f, Completion.signal n f ∉ records e'.2 := fun f hf => by
    have := hsilent _ hf n
    simp [Completion.isSignal] at this
  obtain ⟨hform, hcount, hfirst⟩ := h n
  show SignalForm (e'.1.signalOf n) ∧ _ = (if (e'.1.signalOf n).notice = .unread then 1 else 0) ∧
    ∀ f, Completion.signal n f ∈ e'.1.completions ∨ _ → (e'.1.signalOf n).first = some f
  rw [hentry, htold, hcompletions]
  refine ⟨hform, hcount, fun f hf => hfirst f ?_⟩
  rw [(records_add_perm e.2 e'.2).mem_iff, List.mem_append] at hf
  exact hf.imp_right fun hf => hf.resolve_right (hmem f)

/-- A raise hands on the notice of the episode that it opens, and no other (R117, R118). -/
theorem signalsTold_raise (n : SignalNo) (source : Station) (h : SignalsTold e) :
    SignalsTold ((e.1.raiseSignal n source).1, e.2.add (e.1.raiseSignal n source).2) := by
  rcases e.1.raiseSignal_cases n source with ⟨hpending, hraise⟩ | ⟨hpending, hstate, hhanded⟩
  · rw [hraise, quiet_snd, Handed.add_none]
    intro m
    obtain ⟨hform, hcount, hfirst⟩ := h m
    simp only [quiet_fst, State.signalOf_setSignal]
    by_cases hm : m = n
    · subst hm
      rw [if_pos rfl]
      refine ⟨⟨fun hfalse => absurd (hpending.symm.trans hfalse) (by simp), fun _ => ?_⟩, hcount, hfirst⟩
      obtain ⟨hone, hrest⟩ := hform.2 hpending
      exact ⟨hone.trans (le_bump _), hrest⟩
    · rw [if_neg hm]
      exact ⟨hform, hcount, hfirst⟩
  · intro m
    obtain ⟨hform, hcount, hfirst⟩ := h m
    simp only [hstate, hhanded, State.signalOf_setSignal]
    have hrecords : records { Handed.none with signal := if (e.1.signalOf n).enabled then [[.signal n source]] else [] } =
        if (e.1.signalOf n).enabled then [Completion.signal n source] else [] := by
      split <;> simp [records, Handed.streams, Handed.none]
    have htold : ∀ x, told (Completion.isSignal m) ((e.1.setSignal n x), e.2.add { Handed.none with
          signal := if (e.1.signalOf n).enabled then [[.signal n source]] else [] }) =
        told (Completion.isSignal m) e + if (e.1.signalOf n).enabled ∧ n = m then 1 else 0 := by
      intro x
      simp only [told, countP_records_add, hrecords, State.setSignal_completions]
      cases (e.1.signalOf n).enabled <;> by_cases hm : n = m <;> simp [Completion.isSignal, hm, Nat.add_assoc]
    have hmem : ∀ f, (Completion.signal m f ∈ (e.1.setSignal n
          { pending := true, enabled := (e.1.signalOf n).enabled, count := 1, first := some source
            notice := if (e.1.signalOf n).enabled then .unread else (e.1.signalOf n).notice }).completions ∨
        Completion.signal m f ∈ records (e.2.add { Handed.none with
          signal := if (e.1.signalOf n).enabled then [[.signal n source]] else [] })) →
        (Completion.signal m f ∈ e.1.completions ∨ Completion.signal m f ∈ records e.2) ∨ m = n ∧ f = source := by
      intro f hf
      rw [State.setSignal_completions, (records_add_perm _ _).mem_iff, List.mem_append, hrecords] at hf
      rcases hf with hf | hf | hf
      · exact .inl (.inl hf)
      · exact .inl (.inr hf)
      · split at hf
        · simp only [List.mem_singleton, Completion.signal.injEq] at hf
          exact .inr hf
        · simp at hf
    rw [htold]
    by_cases hm : m = n
    · subst hm
      have hidle := hform.1 hpending
      have hzero : told (Completion.isSignal m) e = 0 := by
        rw [hcount, hidle]
        rfl
      have hnotice : (e.1.signalOf m).notice = .none := by rw [hidle]; rfl
      rw [if_pos rfl, hzero]
      refine ⟨⟨by simp, fun _ => ⟨le_rfl, rfl, ?_⟩⟩, ?_, fun f hf => ?_⟩
      · intro hnone
        cases henabled : (e.1.signalOf m).enabled with
        | false => rfl
        | true => simp [henabled] at hnone
      · cases henabled : (e.1.signalOf m).enabled <;> simp [hnotice]
      · rcases hmem f hf with hold | ⟨-, rfl⟩
        · exact absurd hold (not_or.mpr (not_mem_of_told hzero f))
        · rfl
    · rw [if_neg hm, if_neg fun h => hm h.2.symm]
      exact ⟨hform, hcount, fun f hf => hfirst f ((hmem f hf).resolve_right fun h => hm h.1)⟩

theorem signalsTold_chain (h : Chain p s e) (hs : SignalsAgree s) : SignalsTold e := by
  refine h.keeps (Law := SignalsTold) (fun e e' hact hlaw => ?_) (signalsTold_quiet.mpr hs)
  rcases act_signals hact with ⟨hsignals, hsilent⟩ | ⟨n, source, rfl⟩
  · exact signalsTold_of_silent (act_completions hact) hsignals hsilent hlaw
  · exact signalsTold_raise n source hlaw

theorem signalsAgree_congr {t : State} (hsignals : t.signals = s.signals) (hcompletions : t.completions = s.completions)
    (hs : SignalsAgree s) : SignalsAgree t := by
  intro n
  have : t.signalOf n = s.signalOf n := by simp [State.signalOf, hsignals]
  rw [this, hcompletions]
  exact hs n

theorem signalsAgree_countRound (hs : SignalsAgree s) : SignalsAgree s.countRound := by
  rcases s.countRound_cases with ⟨-, h⟩ | ⟨-, -, h⟩ | ⟨-, -, h⟩ <;> rw [h] <;> exact hs

theorem signalsAgree_counted (h : Counted p s e) (hs : SignalsAgree s) : SignalsAgree e.done := by
  rcases h with h | ⟨e', h, rfl⟩
  · exact signalsAgree_done (signalsTold_chain h hs)
  · rw [done_countRound]
    exact signalsAgree_countRound (signalsAgree_done (signalsTold_chain h hs))

/-- No episode is open, and no record stands in the queue. -/
theorem signalsAgree_of_idle (hidle : ∀ n, ∃ enabled, s.signalOf n = idleSignal enabled) (hcompletions : s.completions = []) :
    SignalsAgree s := by
  intro n
  obtain ⟨enabled, hn⟩ := hidle n
  simp [hn, hcompletions, SignalForm, idleSignal]

/-- SET_MASK hands on one notice for each pending episode that had none and is enabled now (R121). -/
theorem countP_maskNotices (hs : SignalsAgree s) (mask : BitVec 16) (n : SignalNo) :
    (s.maskNotices mask).countP (Completion.isSignal n) = bitOf ((s.signalOf n).maskNotifies (mask.getLsbD n.val)) := by
  have hany : ∀ m : SignalNo, ((if (s.signalOf m).maskNotifies (mask.getLsbD m.val) then (s.signalOf m).first.map fun f => Completion.signal m f
      else none).map (Completion.isSignal n)).getD false =
      (decide (m = n) && (s.signalOf n).maskNotifies (mask.getLsbD n.val)) := by
    intro m
    by_cases hm : m = n
    · subst hm
      cases hnotifies : (s.signalOf m).maskNotifies (mask.getLsbD m.val) with
      | false => simp
      | true =>
        have hpending : (s.signalOf m).pending = true := by
          simp only [SignalEntry.maskNotifies, Bool.and_eq_true] at hnotifies
          exact hnotifies.1.2
        obtain ⟨-, hfirst, -⟩ := (hs m).1.2 hpending
        obtain ⟨f, hf⟩ := Option.isSome_iff_exists.mp hfirst
        simp [hf, Completion.isSignal]
    · cases hf : (s.signalOf m).first <;> split <;> simp [Completion.isSignal, hm]
  rw [State.maskNotices, List.countP_filterMap]
  simp only [hany]
  cases (s.signalOf n).maskNotifies (mask.getLsbD n.val) with
  | false => simp [bitOf]
  | true =>
    have hone : ∀ k : SignalNo, (List.finRange 16).countP (fun a => decide (a = k)) = 1 := by decide
    simp only [Bool.and_true]
    exact hone n

theorem signalsTold_applyMask (mask : BitVec 16) (hs : SignalsAgree s) : SignalsTold (s.applyMask mask) := by
  intro n
  have hrecords : records (s.applyMask mask).2 = s.maskNotices mask := by
    simp [records, State.applyMask, Handed.streams, Handed.none]
  have htold : told (Completion.isSignal n) (s.applyMask mask) = s.completions.countP (Completion.isSignal n) +
      bitOf ((s.signalOf n).maskNotifies (mask.getLsbD n.val)) := by
    rw [told, hrecords, countP_maskNotices hs]
    rfl
  obtain ⟨⟨hidle, hopen⟩, hcount, hfirst⟩ := hs n
  rw [State.applyMask_signalOf, htold, hcount, hrecords]
  refine ⟨⟨fun hpending => ?_, fun hpending => ?_⟩, ?_, fun f hf => ?_⟩
  · have : s.signalOf n = idleSignal (s.signalOf n).enabled := hidle hpending
    rw [this]
    simp [SignalEntry.masked, SignalEntry.maskNotifies, idleSignal]
  · obtain ⟨hone, hsome, -⟩ := hopen hpending
    refine ⟨hone, hsome, ?_⟩
    have hp : (s.signalOf n).pending = true := hpending
    cases hmask : mask.getLsbD n.val with
    | false => simp [SignalEntry.masked]
    | true => cases hnotice : (s.signalOf n).notice <;> simp [SignalEntry.masked, SignalEntry.maskNotifies, hp, hnotice]
  · cases hnotifies : (s.signalOf n).maskNotifies (mask.getLsbD n.val) with
    | false => simp only [SignalEntry.masked, hnotifies, Bool.false_eq_true, if_false, bitOf, Nat.add_zero]
    | true =>
      have : (s.signalOf n).notice = .none := by
        simp only [SignalEntry.maskNotifies, Bool.and_eq_true, beq_iff_eq] at hnotifies
        exact hnotifies.2
      simp only [SignalEntry.masked, hnotifies, this, if_true, bitOf, reduceCtorEq, if_false, Nat.zero_add]
  · rcases hf with hf | hf
    · exact hfirst f hf
    · obtain ⟨m, -, hm⟩ := List.mem_filterMap.mp hf
      split at hm
      · obtain ⟨g, hg, heq⟩ := Option.map_eq_some_iff.mp hm
        obtain ⟨rfl, rfl⟩ := Completion.signal.inj heq
        exact hg
      · cases hm

/-- The reading of an UNREAD notice (R119). -/
theorem readNotice_of_unread {n : SignalNo} (h : (s.signalOf n).notice = .unread) :
    s.readNotice n = s.setSignal n { s.signalOf n with notice := .read } := by
  simp [State.readNotice, h]

/-- A TAKE pops the oldest record, and reads the notice that it pops (R119). -/
theorem signalsAgree_pop {record : Completion} {rest : List Completion} (hc : s.completions = record :: rest) (hs : SignalsAgree s) :
    SignalsAgree ({ s with completions := rest }.readingOf record) := by
  have hother : ∀ n, record.isSignal n = false →
      SignalForm (s.signalOf n) ∧ rest.countP (Completion.isSignal n) = (if (s.signalOf n).notice = .unread then 1 else 0) ∧
        ∀ f, Completion.signal n f ∈ rest → (s.signalOf n).first = some f := by
    intro n hn
    obtain ⟨hform, hcount, hfirst⟩ := hs n
    rw [hc] at hcount hfirst
    exact ⟨hform, by simpa [hn] using hcount, fun f hf => hfirst f (List.mem_cons_of_mem _ hf)⟩
  cases record with
  | request => exact fun n => hother n rfl
  | station => exact fun n => hother n rfl
  | signal m f =>
    obtain ⟨⟨hidle, hopen⟩, hcount, hfirst⟩ := hs m
    rw [hc] at hcount hfirst
    have hunread : (s.signalOf m).notice = .unread := by
      by_contra hne
      rw [if_neg hne] at hcount
      simp [Completion.isSignal] at hcount
    have hzero : rest.countP (Completion.isSignal m) = 0 := by
      rw [if_pos hunread, List.countP_cons_of_pos (by simp [Completion.isSignal])] at hcount
      omega
    have hpending : (s.signalOf m).pending = true := by
      by_contra hne
      rw [hidle (by simpa using hne)] at hunread
      cases hunread
    show SignalsAgree (State.readNotice { s with completions := rest } m)
    rw [readNotice_of_unread (s := { s with completions := rest }) hunread]
    intro n
    rw [State.signalOf_setSignal, State.setSignal_completions]
    by_cases hn : n = m
    · subst hn
      obtain ⟨hone, hsome, -⟩ := hopen hpending
      rw [if_pos rfl, hzero]
      exact ⟨⟨fun h => absurd (hpending.symm.trans h) (by simp), fun _ => ⟨hone, hsome, by simp⟩⟩, by simp,
        fun g hg => hfirst g (List.mem_cons_of_mem _ hg)⟩
    · rw [if_neg hn]
      exact hother n (by simpa [Completion.isSignal] using Ne.symm hn)

theorem signalsAgree_acknowledge {n : SignalNo} {port : NodePort} (hread : (s.signalOf n).notice ≠ .unread) (hs : SignalsAgree s) :
    SignalsAgree { s.setSignal n (idleSignal (s.signalOf n).enabled) with port := port } := by
  intro m
  show SignalForm ((s.setSignal n _).signalOf m) ∧ s.completions.countP _ = (if ((s.setSignal n _).signalOf m).notice = .unread then 1 else 0) ∧
    ∀ f, Completion.signal m f ∈ s.completions → ((s.setSignal n _).signalOf m).first = some f
  rw [State.signalOf_setSignal]
  obtain ⟨hform, hcount, hfirst⟩ := hs m
  by_cases hm : m = n
  · subst hm
    rw [if_neg hread] at hcount
    rw [if_pos rfl, hcount]
    refine ⟨by simp [SignalForm, idleSignal], by simp [idleSignal], fun f hf => ?_⟩
    exact absurd hf (not_mem_of_told (e := quiet s) (by simpa [told] using hcount) f).1
  · rw [if_neg hm]
    exact ⟨hform, hcount, hfirst⟩

theorem signalsAgree_happens {c : Instr} {t : State} (h : Happens s c t) (hu : UnstartedHolds s) (hs : SignalsAgree s) :
    SignalsAgree t := by
  cases h with
  | releases straps =>
    exact signalsAgree_of_idle (fun n => ⟨false, by simp [State.signalOf, released, State.resetWith, signalsReset]⟩) rfl
  | restarts port =>
    refine signalsAgree_of_idle (fun n => ⟨(s.signalOf n).enabled, ?_⟩) rfl
    simp [State.signalOf, State.restarted, State.clearEpisodes]
  | marks =>
    refine signalsAgree_congr ?_ (freeze_completions s) hs
    have hfreezes := freeze_offer s
    generalize s.freeze s.offer = t at hfreezes ⊢
    cases hfreezes <;> rfl
  | yields picture => exact signalsAgree_done (signalsTold_chain (yields_chain picture _) hs)
  | idles => exact signalsAgree_countRound hs
  | outcome settle sent report _ hpart _ => exact signalsAgree_counted (parcelOutcome_counted settle sent report hpart) hs
  | closes ask driven o => exact signalsAgree_counted (closing_counted o) hs
  | expires t => exact signalsAgree_done (signalsTold_chain (expires_chain s t) hs)
  | writes x rest a ending _ hstate => exact signalsAgree_done (signalsTold_chain (writes_chain x ending hstate) hs)
  | reads x rest a ending _ hstate => exact signalsAgree_done (signalsTold_chain (reads_chain x ending hstate) hs)
  | lands t a status =>
    have hfree : SignalsAgree s.pathFallsFree := by rw [State.pathFallsFree_frame]; exact hs
    have htold := signalsTold_of_silent (e := quiet s.pathFallsFree) (e' := s.pathFallsFree.endFetch t status) rfl rfl
      (by simp [records, State.endFetch, Handed.streams, Handed.none, FetchSlot.record, Completion.isSignal])
      (signalsTold_quiet.mpr hfree)
    rw [quiet_snd, Handed.none_add] at htold
    exact signalsAgree_done htold
  | frees => rw [State.pathFallsFree_frame]; exact hs
  | joins config _ _ hunstarted =>
    obtain ⟨-, -, -, -, -, -, -, -, -, -, -, -, -, hsignals, -, hcompletions⟩ := hu hunstarted
    refine signalsAgree_of_idle (fun n => ⟨config.signalMask.getLsbD n.val, ?_⟩) hcompletions
    simp [State.signalOf, State.takeConfig, State.initMask, hsignals, signalsReset, idleSignal]
  | masks mask port => exact signalsAgree_congr (s := (s.applyMask mask).done) rfl rfl (signalsAgree_done (signalsTold_applyMask mask hs))
  | acknowledges n port _ _ hread => exact signalsAgree_acknowledge hread hs
  | pops record rest port _ hc => exact signalsAgree_pop hc hs
  | _ => exact hs

/-- Settles O12: station notices by `countP_isNotice_push`, signal notices act by act and at SET_MASK, TAKE, ACK_SIGNAL and START. -/
theorem noticesKept : Obligations.NoticesKept := by
  intro s t hu hn hs hstep
  rcases step_happens hstep with rfl | ⟨c, rest, h⟩
  · exact ⟨hn, hs⟩
  · exact ⟨noticesOnce_happens h hn, signalsAgree_happens h hu hs⟩

end Sys2Proof.Notices
end

section
/-! The ranges of the counts (10 section 10.6), the form of the reach table (04 section 4.2) and the agreement of the fetch table with the path and
the tags (03 section 3.3, 05 section 5.6), act by act. -/

namespace Sys2Proof.Ranges

open Sys2Proof.Machine Sys2Proof.Safety Sys2Proof.Events Sys2Proof.Acts Sys2Proof.Budget Sys2Proof.Selector Sys2Proof.Notices

variable {p : Part} {s : State} {e : Effect}

/-! ## The counts -/

/-- The bounds of the counts that stand in the blocks. -/
def BlockCounts (s : State) : Prop :=
  s.span.voidRun ≤ Config.countMax ∧ s.span.settleCollision ≤ Config.collisionLimit ∧ s.turn.repair ≤ Config.countMax ∧
    s.joinWatch ≤ Config.watchLength ∧ s.contain.overflow ≤ Config.countMax ∧
    s.contain.log.length ≤ Config.faultCapacity ∧ (∀ d, (s.reachOf d).silence ≤ Config.silenceLimit) ∧
    ∀ n, (s.signalOf n).count ≤ Config.countMax

theorem counts_iff (s : State) : Counts s ↔ BlockCounts s ∧ ∀ c ∈ s.completions, countInRange c := by
  simp only [Counts, BlockCounts, and_assoc]

theorem blockCounts_land (t : SlotNo) (data : List Word) (hs : BlockCounts s) : BlockCounts (s.land t data) := by
  rcases State.askLanding_cases (s.setSlot t { s.slot t with state := .landing, timer := .stopped, deferred := false }) t
    (.write (s.slot t).landing data) with ⟨-, h⟩ | ⟨-, h⟩ <;> rw [State.land, h] <;> exact hs

theorem blockCounts_act (h : Act p s e) (hs : BlockCounts s) : BlockCounts e.1 := by
  obtain ⟨hvoid, hcoll, hrepair, hjoin, hover, hlog, hsilence, hcount⟩ := id hs
  cases h with
  | span u _ hv hc => exact ⟨hv hvoid, hc hcoll, hrepair, hjoin, hover, hlog, hsilence, hcount⟩
  | turn r _ hr => exact ⟨hvoid, hcoll, hr hrepair, hjoin, hover, hlog, hsilence, hcount⟩
  | fault r =>
    rw [quiet_fst]
    rcases s.addFault_cases r with ⟨hlt, h⟩ | ⟨-, h⟩ <;> rw [h]
    · refine ⟨hvoid, hcoll, hrepair, hjoin, hover, ?_, hsilence, hcount⟩
      show (s.contain.log ++ [r]).length ≤ 4
      simpa using hlt
    · exact ⟨hvoid, hcoll, hrepair, hjoin, bump_le _ hover, hlog, hsilence, hcount⟩
  | books d x _ _ _ hx =>
    refine ⟨hvoid, hcoll, hrepair, hjoin, hover, hlog, fun k => ?_, hcount⟩
    rw [quiet_fst, State.reachOf_setReach]
    split
    · exact hx (hsilence d)
    · exact hsilence k
  | slotLands t data => exact blockCounts_land t data hs
  | raises n source =>
    refine ⟨hvoid, hcoll, hrepair, hjoin, hover, hlog, hsilence, fun k => ?_⟩
    rcases s.raiseSignal_cases n source with ⟨-, h⟩ | ⟨-, h, -⟩ <;> rw [h]
    · rw [quiet_fst, State.signalOf_setSignal]
      split
      · exact bump_le _ (hcount n)
      · exact hcount k
    · rw [State.signalOf_setSignal]
      split
      · show 1 ≤ 255
        omega
      · exact hcount k
  | _ => exact hs

theorem blockCounts_chain (h : Chain p s e) (hs : BlockCounts s) : BlockCounts e.1 :=
  h.preserves (fun _ _ => blockCounts_act) hs

theorem blockCounts_countRound (hs : BlockCounts s) : BlockCounts s.countRound := by
  obtain ⟨hvoid, hcoll, hrepair, -, hover, hlog, hsilence, hcount⟩ := id hs
  rcases s.countRound_cases with ⟨-, h⟩ | ⟨-, hj, h⟩ | ⟨-, -, h⟩ <;> rw [h]
  · exact hs
  · exact ⟨hvoid, hcoll, hrepair, hj.le, hover, hlog, hsilence, hcount⟩
  · exact ⟨hvoid, hcoll, hrepair, le_rfl, hover, hlog, hsilence, hcount⟩

theorem blockCounts_done (h : BlockCounts e.1) : BlockCounts e.done := h

theorem blockCounts_port {port : NodePort} (h : BlockCounts s) : BlockCounts { s with port := port } := h

theorem blockCounts_counted (h : Counted p s e) (hs : BlockCounts s) : BlockCounts e.done := by
  rcases h with h | ⟨e', h, rfl⟩
  · exact blockCounts_chain h hs
  · exact blockCounts_countRound (blockCounts_chain h hs)

theorem blockCounts_freeze (hs : BlockCounts s) : BlockCounts (s.freeze s.offer) := by
  have h := freeze_offer s
  generalize s.freeze s.offer = t at h ⊢
  cases h <;> exact hs

/-- A station that a reset has emptied has all its counts at 0. -/
theorem blockCounts_of_reset {strap : BitVec 4} (hspan : s.span = .reset) (hturn : s.turn = .reset) (hjoin : s.joinWatch = 0)
    (hreach : s.reach = reachReset strap) (hsignals : ∀ n, (s.signalOf n).count = 0) (hover : s.contain.overflow ≤ Config.countMax)
    (hlog : s.contain.log.length ≤ Config.faultCapacity) : BlockCounts s := by
  refine ⟨by simp [hspan, SpanUnit.reset], by simp [hspan, SpanUnit.reset], by simp [hturn, TurnRecord.reset], by simp [hjoin], hover, hlog,
    fun d => ?_, fun n => by simp [hsignals n]⟩
  have hzero : (s.reachOf d).silence = 0 := by simp [State.reachOf, hreach, reachReset]
  simp [hzero]

theorem blockCounts_happens {c : Instr} {t : State} (h : Happens s c t) (hs : BlockCounts s) : BlockCounts t := by
  obtain ⟨hvoid, hcoll, hrepair, hjoin, hover, hlog, hsilence, hcount⟩ := id hs
  cases h with
  | releases straps =>
    refine blockCounts_of_reset (strap := straps) rfl rfl rfl rfl (fun n => ?_) (Nat.zero_le _) (Nat.zero_le _)
    simp [State.signalOf, released, State.resetWith, signalsReset, idleSignal]
  | restarts port =>
    refine blockCounts_of_reset (strap := s.strap) rfl rfl rfl rfl (fun n => ?_) hover hlog
    simp [State.signalOf, State.restarted, State.clearEpisodes, idleSignal]
  | marks => exact blockCounts_freeze hs
  | yields picture => exact blockCounts_chain (yields_chain picture _) hs
  | idles => exact blockCounts_countRound hs
  | outcome settle sent report _ hpart _ => exact blockCounts_counted (parcelOutcome_counted settle sent report hpart) hs
  | closes ask driven o => exact blockCounts_counted (closing_counted o) hs
  | expires t => exact blockCounts_chain (expires_chain s t) hs
  | writes x rest a ending _ hstate => exact blockCounts_chain (writes_chain x ending hstate) hs
  | reads x rest a ending _ hstate => exact blockCounts_chain (reads_chain x ending hstate) hs
  | lands t a status => rw [State.pathFallsFree_frame]; exact hs
  | frees => rw [State.pathFallsFree_frame]; exact hs
  | retries d =>
    refine ⟨hvoid, hcoll, hrepair, hjoin, hover, hlog, fun k => ?_, hcount⟩
    rw [State.reachOf_setReach]
    split
    · exact hsilence d
    · exact hsilence k
  | joins config =>
    refine ⟨hvoid, hcoll, hrepair, Nat.zero_le _, hover, hlog, hsilence, fun n => ?_⟩
    simpa [State.takeConfig, State.initMask, State.signalOf] using hcount n
  | masks mask =>
    have hmasked : BlockCounts (s.applyMask mask).1 :=
      ⟨hvoid, hcoll, hrepair, hjoin, hover, hlog, hsilence, fun n => by rw [State.applyMask_signalOf]; exact hcount n⟩
    exact blockCounts_port (blockCounts_done hmasked)
  | acknowledges n =>
    refine ⟨hvoid, hcoll, hrepair, hjoin, hover, hlog, hsilence, fun k => ?_⟩
    show ((s.setSignal n _).signalOf k).count ≤ _
    rw [State.signalOf_setSignal]
    split
    · exact Nat.zero_le _
    · exact hcount k
  | clears => exact ⟨hvoid, hcoll, hrepair, hjoin, Nat.zero_le _, Nat.zero_le _, hsilence, hcount⟩
  | pops record rest =>
    cases record with
    | request => exact hs
    | station => exact hs
    | signal m f =>
      refine ⟨hvoid, hcoll, hrepair, hjoin, hover, hlog, hsilence, fun k => ?_⟩
      show ((State.setSignal { s with completions := rest } m _).signalOf k).count ≤ _
      rw [State.signalOf_setSignal]
      split
      · exact hcount m
      · exact hcount k
  | _ => exact hs

/-! ## The counts of the station notices -/

/-- A record handed on is a request's, a signal notice, or a station notice of one occurrence (R175, R177). -/
def Single (c : Completion) : Prop := c.isRequest = true ∨ (∃ n f, c = .signal n f) ∨ ∃ k arg, c = notice k arg

theorem countInRange_of_single {c : Completion} (h : Single c) : countInRange c := by
  rcases h with h | ⟨n, f, rfl⟩ | ⟨k, arg, rfl⟩
  · cases c with
    | station => cases h
    | _ => trivial
  · trivial
  · exact ⟨le_rfl, by decide⟩

theorem single_act (h : Act p s e) : ∀ c ∈ records e.2, Single c := by
  cases h with
  | leaves keep groups hreq _ =>
    have hrecords : records { Handed.none with sendQueue := groups } = groups.flatten := by
      simp [records, Handed.streams, Handed.none]
    exact fun c hc => .inl (hreq c (hrecords ▸ hc))
  | slotsFail which status =>
    intro c hc
    simp only [records, State.failAwaiting, Handed.streams, Handed.none, List.flatten_cons, List.flatten_nil, List.append_nil,
      List.nil_append, List.mem_filterMap] at hc
    obtain ⟨t, -, ht⟩ := hc
    split at ht
    · exact .inl (Option.some.inj ht ▸ rfl)
    · cases ht
  | slotEnds t status _ =>
    intro c hc
    have : c = (s.slot t).record status := by simpa [records, State.endFetch, Handed.streams, Handed.none] using hc
    exact .inl (this ▸ rfl)
  | raises n source =>
    intro c hc
    rcases s.raiseSignal_cases n source with ⟨-, h⟩ | ⟨-, -, h⟩ <;> rw [h] at hc
    · simp at hc
    · split at hc
      · have : c = .signal n source := by simpa [records, Handed.streams, Handed.none] using hc
        exact .inr (.inl ⟨n, source, this⟩)
      · simp [records, Handed.streams, Handed.none] at hc
  | tells h hnotices => exact fun c hc => .inr (.inr (hnotices c hc))
  | _ => exact fun c hc => absurd hc (by simp)

theorem single_chain (h : Chain p s e) : ∀ c ∈ records e.2, Single c := by
  refine h.keeps (Law := fun e => ∀ c ∈ records e.2, Single c) (fun e e' hact hlaw c hc => ?_) (by simp)
  rw [(records_add_perm e.2 e'.2).mem_iff, List.mem_append] at hc
  exact hc.elim (hlaw c) (single_act hact c)

theorem countInRange_coalesce (k : NoticeKind) (arg : Nat) {c : Completion} (h : countInRange c) : countInRange (coalesce k arg c) := by
  cases c with
  | station k' n a =>
    by_cases hk : k' = k
    · rw [show coalesce k arg (.station k' n a) = .station k' (bump n) arg by simp [coalesce, hk]]
      exact ⟨h.1.trans (le_bump n), bump_le n h.2⟩
    · rw [show coalesce k arg (.station k' n a) = .station k' n a by simp [coalesce, hk]]
      exact h
  | _ => trivial

theorem countInRange_push {q : List Completion} {c : Completion} (hc : countInRange c) (hq : ∀ x ∈ q, countInRange x) :
    ∀ x ∈ push q c, countInRange x := by
  have htail : ∀ x ∈ q ++ [c], countInRange x := by
    intro x hx
    rcases List.mem_append.mp hx with hx | hx
    · exact hq x hx
    · exact List.mem_singleton.mp hx ▸ hc
  cases c with
  | station k n arg =>
    cases hany : q.any (Completion.isNotice k) with
    | true =>
      rw [push_notice_again q k n arg hany]
      intro x hx
      obtain ⟨y, hy, rfl⟩ := List.mem_map.mp hx
      exact countInRange_coalesce k arg (hq y hy)
    | false =>
      rw [push_notice_new q k n arg hany]
      exact htail
  | _ => exact htail

theorem countInRange_done (hrecords : ∀ c ∈ records e.2, Single c) (hq : ∀ x ∈ e.1.completions, countInRange x) :
    ∀ x ∈ e.done.completions, countInRange x := by
  obtain ⟨-, order, hperm, horder⟩ := State.handOn_spec e.1 e.2.streams
  have hfold : ∀ g l : List Completion, (∀ c ∈ g, Single c) → (∀ x ∈ l, countInRange x) → ∀ x ∈ g.foldl push l, countInRange x := by
    intro g
    induction g with
    | nil => exact fun l _ hl => hl
    | cons c g ih =>
      exact fun l hg hl => ih _ (fun x hx => hg x (List.mem_cons_of_mem _ hx))
        (countInRange_push (countInRange_of_single (hg c List.mem_cons_self)) hl)
  rw [Effect.done, horder]
  exact hfold _ _ (fun c hc => hrecords c ((List.Perm.flatten hperm).mem_iff.mp hc)) hq

theorem countInRange_counted (h : Counted p s e) (hs : ∀ x ∈ s.completions, countInRange x) : ∀ x ∈ e.done.completions, countInRange x := by
  rcases h with h | ⟨e', h, rfl⟩
  · exact countInRange_done (single_chain h) (chain_completions h ▸ hs)
  · rw [done_countRound, countRound_completions]
    exact countInRange_done (single_chain h) (chain_completions h ▸ hs)

theorem countInRange_happens {c : Instr} {t : State} (h : Happens s c t) (hs : ∀ x ∈ s.completions, countInRange x) :
    ∀ x ∈ t.completions, countInRange x := by
  cases h with
  | releases => exact fun x hx => absurd hx (List.not_mem_nil)
  | restarts => exact fun x hx => absurd hx (List.not_mem_nil)
  | marks => rw [freeze_completions]; exact hs
  | yields picture => exact countInRange_counted (.inl (yields_chain picture _)) hs
  | idles => rw [countRound_completions]; exact hs
  | outcome settle sent report _ hpart _ => exact countInRange_counted (parcelOutcome_counted settle sent report hpart) hs
  | closes ask driven o => exact countInRange_counted (closing_counted o) hs
  | expires t => exact countInRange_counted (.inl (expires_chain s t)) hs
  | writes x rest a ending _ hstate => exact countInRange_counted (.inl (writes_chain x ending hstate)) hs
  | reads x rest a ending _ hstate => exact countInRange_counted (.inl (reads_chain x ending hstate)) hs
  | lands t a status =>
    refine countInRange_done (fun c hc => ?_) ?_
    · have : c = (s.pathFallsFree.slot t).record status := by simpa [records, State.endFetch, Handed.streams, Handed.none] using hc
      exact .inl (this ▸ rfl)
    · rw [State.pathFallsFree_frame]
      exact hs
  | frees => rw [State.pathFallsFree_frame]; exact hs
  | masks mask =>
    refine countInRange_done (e := s.applyMask mask) (fun c hc => ?_) hs
    have hc' : c ∈ s.maskNotices mask := by simpa [records, State.applyMask, Handed.streams, Handed.none] using hc
    obtain ⟨n, -, hn⟩ := List.mem_filterMap.mp hc'
    split at hn
    · obtain ⟨f, -, rfl⟩ := Option.map_eq_some_iff.mp hn
      exact .inr (.inl ⟨n, f, rfl⟩)
    · cases hn
  | pops record rest port _ hc =>
    show ∀ x ∈ (State.readingOf _ record).completions, _
    rw [readingOf_completions]
    exact fun x hx => hs x (hc ▸ List.mem_cons_of_mem _ hx)
  | _ => exact hs

/-- Settles O10: the counts of the blocks act by act, those of the station notices record by record. -/
theorem countsKept : Obligations.CountsKept := by
  intro s t hs hstep
  rcases step_happens hstep with rfl | ⟨c, rest, h⟩
  · exact hs
  · obtain ⟨hblocks, hqueue⟩ := (counts_iff s).mp hs
    exact (counts_iff t).mpr ⟨blockCounts_happens h hblocks, countInRange_happens h hqueue⟩

/-! ## The reach table -/

theorem act_strap (h : Act p s e) : e.1.strap = s.strap := by
  cases h with
  | fault r => simp
  | slotLands t data =>
    rcases State.askLanding_cases (s.setSlot t { s.slot t with state := .landing, timer := .stopped, deferred := false }) t
      (.write (s.slot t).landing data) with ⟨-, h⟩ | ⟨-, h⟩ <;> simp [State.land, h]
  | _ => rfl

theorem chain_strap (h : Chain p s e) : e.1.strap = s.strap :=
  h.preserves (Law := fun t => t.strap = s.strap) (fun _ _ hact hlaw => (act_strap hact).trans hlaw) rfl

/-- An act books an entry that is not this station's own, or leaves the table. -/
theorem act_reach (h : Act p s e) :
    e.1.reach = s.reach ∨ ∃ d x, e.1.reach = (s.setReach d x).reach ∧ (s.reachOf d).state ≠ .self ∧ x.state ≠ .self ∧
      (((s.reachOf d).timer = .stopped ↔ (s.reachOf d).state ≠ .waiting) → (x.timer = .stopped ↔ x.state ≠ .waiting)) := by
  cases h with
  | fault r => exact .inl (by simp)
  | slotLands t data =>
    rcases State.askLanding_cases (s.setSlot t { s.slot t with state := .landing, timer := .stopped, deferred := false }) t
      (.write (s.slot t).landing data) with ⟨-, h⟩ | ⟨-, h⟩ <;> exact .inl (by simp [State.land, h])
  | books d x hold hnew htimer _ => exact .inr ⟨d, x, rfl, hold, hnew, htimer⟩
  | _ => exact .inl rfl

theorem reachAgrees_congr {t : State} (hreach : t.reach = s.reach) (hstrap : t.strap = s.strap) (hs : ReachAgrees s) : ReachAgrees t := by
  intro d
  have hentry : t.reachOf d = s.reachOf d := by simp [State.reachOf, hreach]
  have hself : t.isSelf d = s.isSelf d := by simp [State.isSelf, hstrap]
  rw [hentry, hself]
  exact hs d

theorem reachAgrees_setReach {d : Station} {x : ReachEntry} (hold : (s.reachOf d).state ≠ .self) (hnew : x.state ≠ .self)
    (htimer : ((s.reachOf d).timer = .stopped ↔ (s.reachOf d).state ≠ .waiting) → (x.timer = .stopped ↔ x.state ≠ .waiting))
    (hs : ReachAgrees s) : ReachAgrees (s.setReach d x) := by
  intro k
  rw [State.reachOf_setReach, State.setReach_isSelf]
  obtain ⟨hself, hsilence, htimers⟩ := hs k
  split
  · rename_i hk
    subst hk
    exact ⟨iff_of_false hnew (fun h => hold (hself.mpr h)), fun h => absurd h hnew, htimer htimers⟩
  · exact ⟨hself, hsilence, htimers⟩

theorem reachAgrees_act (h : Act p s e) (hs : ReachAgrees s) : ReachAgrees e.1 := by
  rcases act_reach h with hreach | ⟨d, x, hreach, hold, hnew, htimer⟩
  · exact reachAgrees_congr hreach (act_strap h) hs
  · have hset := reachAgrees_setReach hold hnew htimer hs
    exact reachAgrees_congr hreach ((act_strap h).trans (s.setReach_strap d x).symm) hset

theorem reachAgrees_chain (h : Chain p s e) (hs : ReachAgrees s) : ReachAgrees e.1 :=
  h.preserves (fun _ _ => reachAgrees_act) hs

theorem reachAgrees_countRound (hs : ReachAgrees s) : ReachAgrees s.countRound := by
  rcases s.countRound_cases with ⟨-, h⟩ | ⟨-, -, h⟩ | ⟨-, -, h⟩ <;> rw [h] <;> exact hs

theorem reachAgrees_counted (h : Counted p s e) (hs : ReachAgrees s) : ReachAgrees e.done := by
  rcases h with h | ⟨e', h, rfl⟩
  · exact reachAgrees_chain h hs
  · exact reachAgrees_countRound (reachAgrees_chain h hs)

theorem reachAgrees_of_reset (hreach : s.reach = reachReset s.strap) : ReachAgrees s := by
  intro d
  have hentry : s.reachOf d = { state := if d.val = s.strap.toNat then .self else .unknown, silence := 0, timer := .stopped } := by
    simp [State.reachOf, hreach, reachReset]
  rw [hentry]
  by_cases h : d.val = s.strap.toNat <;> simp [State.isSelf, h]

theorem reachAgrees_done (h : ReachAgrees e.1) : ReachAgrees e.done := h

theorem reachAgrees_port {port : NodePort} (h : ReachAgrees s) : ReachAgrees { s with port := port } := h

theorem reachAgrees_happens {c : Instr} {t : State} (h : Happens s c t) (hs : ReachAgrees s) : ReachAgrees t := by
  cases h with
  | releases => exact reachAgrees_of_reset rfl
  | restarts => exact reachAgrees_of_reset rfl
  | marks =>
    have h := freeze_offer s
    generalize s.freeze s.offer = t at h ⊢
    cases h <;> exact hs
  | yields picture => exact reachAgrees_chain (yields_chain picture _) hs
  | idles => exact reachAgrees_countRound hs
  | outcome settle sent report _ hpart _ => exact reachAgrees_counted (parcelOutcome_counted settle sent report hpart) hs
  | closes ask driven o => exact reachAgrees_counted (closing_counted o) hs
  | expires t => exact reachAgrees_chain (expires_chain s t) hs
  | writes x rest a ending _ hstate => exact reachAgrees_chain (writes_chain x ending hstate) hs
  | reads x rest a ending _ hstate => exact reachAgrees_chain (reads_chain x ending hstate) hs
  | lands t a status => rw [State.pathFallsFree_frame]; exact hs
  | frees => rw [State.pathFallsFree_frame]; exact hs
  | retries d _ hwaiting => exact reachAgrees_setReach (by simp [hwaiting]) (by simp) (by simp) hs
  | masks mask => exact reachAgrees_port (reachAgrees_done (e := s.applyMask mask) hs)
  | pops record rest => cases record <;> exact hs
  | _ => exact hs

/-- Settles O17: an act books an entry other than SELF with a timer that fits its state, or leaves the table (`act_reach`). -/
theorem reachTableKept : Obligations.ReachTableKept := by
  intro s t hs hstep
  rcases step_happens hstep with rfl | ⟨c, rest, h⟩
  · exact hs
  · exact reachAgrees_happens h hs

end Sys2Proof.Ranges
end

section
/-! The fetch table, the path and the tags (03 section 3.3, 05 sections 5.3 and 5.6): a slot is LANDING exactly while the path has its landing, and
the tag of a FETCH in flight names a FREE slot (R42, R78, R83, R84). -/

namespace Sys2Proof.FetchTable

open Sys2Proof.Machine Sys2Proof.Safety Sys2Proof.Events Sys2Proof.Acts Sys2Proof.Selector Sys2Proof.Ranges

variable {p : Part} {s : State} {e : Effect}

/-! ## The tags -/

/-- A tag holds as long as the FREE slots stay FREE. -/
theorem tagHolds_of_free {t : State} {x : SendEntry} (hfree : ∀ i, (s.slot i).state = .free → (t.slot i).state = .free)
    (h : tagHolds s x = true) : tagHolds t x = true := by
  unfold tagHolds at h ⊢
  split at h
  · split at h
    · obtain ⟨i, hi, hslot⟩ := (Option.any_eq_true _ _).mp h
      rw [if_pos ‹_›]
      exact (Option.any_eq_true _ _).mpr ⟨i, hi, by simpa using hfree i (by simpa using hslot)⟩
    · rw [if_neg ‹_›]
      exact h
  · rfl

/-- The tag of an entry that is not in flight is empty, whatever the slots hold. -/
theorem tagHolds_of_not_inFlight {t : State} {x : SendEntry} (hx : x.inFlight = false) (h : tagHolds s x = true) : tagHolds t x = true := by
  unfold tagHolds at h ⊢
  simpa [hx] using h

theorem tagHolds_of_released {x : SendEntry} {op : SendOp} (hop : x.op = op.withTag none) (hx : x.inFlight = false) :
    tagHolds s x = true := by
  unfold tagHolds
  cases op <;> simp [hop, hx, SendOp.withTag]

theorem tagsAgree_of_free {t : State} (hqueue : ∀ x ∈ t.sendQueue, x ∈ s.sendQueue)
    (hfree : ∀ i, (s.slot i).state = .free → (t.slot i).state = .free) (h : TagsAgree s) : TagsAgree t :=
  fun x hx => tagHolds_of_free hfree (h x (hqueue x hx))

/-- The queue with the entries in flight released (R43). -/
theorem tagHolds_released {f : SendEntry → SendEntry} (hf : ∀ x, (f x).op = x.op.withTag none ∧ (f x).inFlight = false ∧ (f x).dest = x.dest)
    (h : TagsAgree s) {t : State} (hqueue : t.sendQueue = s.sendQueue.map fun x => if x.inFlight then f x else x) : TagsAgree t := by
  intro y hy
  rw [hqueue] at hy
  obtain ⟨x, hx, rfl⟩ := List.mem_map.mp hy
  split
  · obtain ⟨hop, hflight, -⟩ := hf x
    exact tagHolds_of_released hop hflight
  · exact tagHolds_of_not_inFlight (Bool.eq_false_iff.mpr ‹_›) (h x hx)

/-- The slot that the in-flight FETCH names is FREE (R42). -/
theorem slot_free_of_tag (h : TagsAgree s) {x : SendEntry} {addr landing : Word} {length : Nat} {t : SlotNo}
    (hx : s.inFlightEntry = some x) (hop : x.op = .fetch addr length landing (some t)) : (s.slot t).state = .free := by
  have hflight : x.inFlight = true := by simpa using List.find?_some hx
  have := h x (List.mem_of_find?_eq_some hx)
  simpa [tagHolds, hop, hflight] using this

/-! ## The landings -/

/-- The law of the landings of a station that is not held in reset. -/
def Lands (s : State) : Prop := (landings s.path).Nodup ∧ ∀ t, (s.slot t).state = .landing ↔ t ∈ landings s.path

theorem landingAgrees_iff (s : State) : LandingAgrees s ↔ (s.held = false → Lands s) := Iff.rfl

theorem lands_congr {t : State} (hpath : (landings t.path).Perm (landings s.path)) (hslots : ∀ i, (t.slot i).state = .landing ↔ (s.slot i).state = .landing)
    (h : Lands s) : Lands t :=
  ⟨hpath.nodup_iff.mpr h.1, fun i => (hslots i).trans ((h.2 i).trans hpath.mem_iff.symm)⟩

/-- A slot that was not LANDING and is not LANDING. -/
theorem lands_setSlot {t : SlotNo} {f : FetchSlot} (hold : (s.slot t).state ≠ .landing) (hnew : f.state ≠ .landing) (h : Lands s) :
    Lands (s.setSlot t f) := by
  refine lands_congr (s := s) (.refl _) (fun i => ?_) h
  rw [State.slot_setSlot]
  split
  · subst_vars
    exact iff_of_false hnew hold
  · exact Iff.rfl

theorem lands_failAwaiting (which : FetchSlot → Bool) (status : Status) (h : Lands s) : Lands (s.failAwaiting which status).1 := by
  refine lands_congr (s := s) (.refl _) (fun i => ?_) h
  rw [State.failAwaiting_slot]
  split
  · rename_i hfails
    have : (s.slot i).state = .awaiting := by simp_all
    simp [freeSlot, this]
  · exact Iff.rfl

/-- What a slot that lands makes of the slots and the path (R83). -/
theorem land_slot (t i : SlotNo) (data : List Word) :
    ((s.land t data).slot i).state = if i = t then .landing else (s.slot i).state := by
  rcases State.askLanding_cases (s.setSlot t { s.slot t with state := .landing, timer := .stopped, deferred := false }) t
    (.write (s.slot t).landing data) with ⟨-, h⟩ | ⟨-, h⟩ <;>
  · rw [State.land, h]
    change ((State.setSlot s t _).slot i).state = _
    rw [State.slot_setSlot]
    split <;> rfl

theorem land_landings (t : SlotNo) (data : List Word) : (landings (s.land t data).path).Perm (t :: landings s.path) := by
  rcases State.askLanding_cases (s.setSlot t { s.slot t with state := .landing, timer := .stopped, deferred := false }) t
    (.write (s.slot t).landing data) with ⟨hfree, h⟩ | ⟨-, h⟩ <;> rw [State.land, h]
  · have hstate : s.path.state = .free := hfree
    simp [landings, hstate]
  · simp only [landings, State.setSlot_path, List.map_append, List.map_cons, List.map_nil, ← List.append_assoc]
    exact List.perm_append_singleton _ _

theorem land_frame (t : SlotNo) (data : List Word) :
    s.land t data = { s with slots := (s.land t data).slots, path := (s.land t data).path } := by
  rcases State.askLanding_cases (s.setSlot t { s.slot t with state := .landing, timer := .stopped, deferred := false }) t
    (.write (s.slot t).landing data) with ⟨-, h⟩ | ⟨-, h⟩ <;> rw [State.land, h] <;> rfl

theorem lands_land {t : SlotNo} (data : List Word) (hold : (s.slot t).state = .holding) (h : Lands s) : Lands (s.land t data) := by
  have hnew : t ∉ landings s.path := fun ht => by simp [(h.2 t).mpr ht] at hold
  refine ⟨(land_landings t data).nodup_iff.mpr (List.nodup_cons.mpr ⟨hnew, h.1⟩), fun i => ?_⟩
  rw [land_slot, (land_landings t data).mem_iff, List.mem_cons]
  by_cases hi : i = t
  · simp [hi]
  · simpa [hi] using h.2 i

/-! ## The acts -/

theorem act_held (h : Act p s e) : e.1.held = s.held := by
  cases h with
  | fault r => simp
  | slotLands t data => rw [quiet_fst, land_frame]
  | _ => rfl

/-- Both laws of the fetch table. -/
def Agrees (s : State) : Prop := TagsAgree s ∧ LandingAgrees s

theorem tagsAgree_act (h : Act p s e) (hs : TagsAgree s) : TagsAgree e.1 := by
  have hkeeps : ∀ {t : SlotNo} {f : FetchSlot}, (s.slot t).state ≠ .free → TagsAgree (s.setSlot t f) := fun {t f} hused =>
    tagsAgree_of_free (s := s) (fun _ => id) (fun i hi => by
      have hne : i ≠ t := fun h => hused (h ▸ hi)
      rw [State.slot_setSlot, if_neg hne]
      exact hi) hs
  cases h with
  | releases f hf => exact tagHolds_released hf hs rfl
  | leaves keep groups => exact tagsAgree_of_free (s := s) (fun _ hx => List.mem_of_mem_filter hx) (fun _ => id) hs
  | fetches x addr length landing t hx hop =>
    intro y hy
    obtain ⟨hy, hflight⟩ := List.mem_filter.mp hy
    exact tagHolds_of_not_inFlight (by simpa using hflight) (hs y hy)
  | slotsFail which status =>
    refine tagsAgree_of_free (s := s) (fun _ => id) (fun i hi => ?_) hs
    rw [State.failAwaiting_slot]
    split
    · rfl
    · exact hi
  | slotEnds t status hstate => exact hkeeps (by rcases hstate with h | h <;> simp [h])
  | slotKept t f hstate => exact hkeeps (by simp [hstate])
  | slotLands t data hstate =>
    have hqueue : (s.land t data).sendQueue = s.sendQueue := by rw [land_frame]
    refine tagsAgree_of_free (fun x hx => hqueue ▸ hx) (fun i hi => ?_) hs
    rw [quiet_fst, land_slot, if_neg (fun h => by simp [h ▸ hi] at hstate)]
    exact hi
  | fault r =>
    rcases s.addFault_cases r with ⟨-, h⟩ | ⟨-, h⟩ <;> rw [quiet_fst, h] <;> exact hs
  | _ => exact hs

theorem lands_act (h : Act p s e) (htags : TagsAgree s) (hs : Lands s) : Lands e.1 := by
  cases h with
  | fetches x addr length landing t hx hop =>
    have hfree := slot_free_of_tag htags hx hop
    exact lands_setSlot (s := s.removeInFlight) (by simp only [ne_eq]; exact fun h => by simp [show (s.slot t).state = .landing from h] at hfree)
      (by simp) hs
  | slotsFail which status => exact lands_failAwaiting which status hs
  | slotEnds t status hstate => exact lands_setSlot (by rcases hstate with h | h <;> simp [h]) (by simp [freeSlot]) hs
  | slotKept t f hstate hf => exact lands_setSlot (by simp [hstate]) (by rcases hf with h | ⟨h, -⟩ <;> simp [h]) hs
  | slotLands t data hstate => exact lands_land data hstate hs
  | memory engine m hm => exact lands_congr hm (fun _ => Iff.rfl) hs
  | fault r =>
    rcases s.addFault_cases r with ⟨-, h⟩ | ⟨-, h⟩ <;> rw [quiet_fst, h] <;> exact hs
  | _ => exact hs

theorem agrees_chain (h : Chain p s e) (hs : Agrees s) : Agrees e.1 :=
  h.preserves (Law := Agrees) (fun _ _ hact hs => ⟨tagsAgree_act hact hs.1, fun hheld => lands_act hact hs.1 (hs.2 (act_held hact ▸ hheld))⟩) hs

theorem agrees_countRound (hs : Agrees s) : Agrees s.countRound := by
  rcases s.countRound_cases with ⟨-, h⟩ | ⟨-, -, h⟩ | ⟨-, -, h⟩ <;> rw [h] <;> exact hs

theorem agrees_counted (h : Counted p s e) (hs : Agrees s) : Agrees e.done := by
  rcases h with h | ⟨e', h, rfl⟩
  · exact agrees_chain h hs
  · exact agrees_countRound (agrees_chain h hs)

/-! ## Every command -/

/-- A frozen FETCH finds a FREE slot, and its tag names it (R41, R42). -/
theorem agrees_freeze (hs : Agrees s) : Agrees (s.freeze s.offer) := by
  have h := freeze_offer s
  generalize s.freeze s.offer = t at h ⊢
  cases h with
  | entry older younger x _ hsplit heligible =>
    refine ⟨fun y hy => ?_, hs.2⟩
    obtain ⟨-, -, hslot⟩ := heligible
    have hmem : ∀ z, z ∈ older ∨ z ∈ younger → z ∈ s.sendQueue := fun z hz => by
      rw [hsplit]
      rcases hz with h | h <;> simp [h]
    rcases List.mem_append.mp hy with hy | hy
    · exact hs.1 y (hmem y (.inl hy))
    · rcases List.mem_cons.mp hy with rfl | hy
      · cases hop : x.op with
        | fetch addr length landing tag =>
          obtain ⟨k, hk⟩ := hslot (by simp [SendEntry.kind, hop])
          have hsome : s.freeSlot?.isSome = true := by
            rw [State.freeSlot?, List.find?_isSome]
            exact ⟨k, List.mem_finRange k, by simp [hk]⟩
          obtain ⟨i, hi⟩ := Option.isSome_iff_exists.mp hsome
          have hfree := ((freeSlot?_eq_some_iff s i).mp hi).1
          simp only [tagHolds, SendEntry.freeze, hop, SendOp.withTag, hi, if_true, Option.any_some, beq_iff_eq]
          exact hfree
        | post => simp [tagHolds, SendEntry.freeze, hop, SendOp.withTag]
        | signal => simp [tagHolds, SendEntry.freeze, hop, SendOp.withTag]
      · exact hs.1 y (hmem y (.inr hy))
  | _ => exact hs

/-- The path that falls FREE has the landings that waited (R112). -/
theorem lands_pathFallsFree (hnone : landings s.path = s.path.landingWaiting.map Prod.fst) (hs : Lands s) : Lands s.pathFallsFree := by
  have hperm : (landings s.pathFallsFree.path).Perm (landings s.path) := hnone ▸ landings_pathFallsFree_perm s
  rw [State.pathFallsFree_frame]
  exact lands_congr hperm (fun _ => Iff.rfl) hs

/-- A landing that has ended is neither in flight nor waiting, and its slot is FREE (R84). -/
theorem lands_landed {t : SlotNo} {a : Access} (status : Status) (hstate : s.path.state = .busy (.landing t) a) (hs : Lands s) :
    Lands (s.pathFallsFree.endFetch t status).1 := by
  have hnow : landings s.path = t :: s.path.landingWaiting.map Prod.fst := by simp [landings, hstate]
  have hperm := landings_pathFallsFree_perm s
  obtain ⟨hnodup, hslots⟩ := hs
  rw [hnow] at hnodup hslots
  obtain ⟨hout, hrest⟩ := List.nodup_cons.mp hnodup
  have hslot : ∀ i, s.pathFallsFree.slot i = s.slot i := fun i => by rw [State.pathFallsFree_frame]; rfl
  refine ⟨hperm.nodup_iff.mpr hrest, fun i => ?_⟩
  change ((s.pathFallsFree.setSlot t freeSlot).slot i).state = .landing ↔ i ∈ landings s.pathFallsFree.path
  rw [State.slot_setSlot, hperm.mem_iff]
  by_cases hi : i = t
  · subst hi
    simpa [freeSlot] using hout
  · rw [if_neg hi, hslot, hslots i, List.mem_cons, or_iff_right hi]

theorem lands_of_reset (hslots : s.slots = slotsReset) (hpath : landings s.path = []) : Lands s := by
  refine ⟨by simp [hpath], fun i => ?_⟩
  simp [State.slot, hslots, slotsReset, freeSlot, hpath]

/-- A path at a reset has no landing (R114). -/
theorem landings_abandon (m : MemPath) (user : ServedUser) : landings { m.abandon with lastServed := user } = [] := by
  cases h : m.state <;> simp [landings, MemPath.abandon, h]

theorem agrees_port {port : NodePort} (hs : Agrees s) : Agrees { s with port := port } := hs

theorem agrees_done (hs : Agrees e.1) : Agrees e.done := hs

theorem agrees_happens {c : Instr} {t : State} (h : Happens s c t) (hs : Agrees s) : Agrees t := by
  cases h with
  | asserts => exact ⟨tagHolds_released (f := SendEntry.release) (fun _ => ⟨rfl, rfl, rfl⟩) hs.1 rfl, fun hheld => by cases hheld⟩
  | releases straps => exact ⟨fun _ hx => absurd hx List.not_mem_nil, fun _ => lands_of_reset rfl (landings_abandon _ _)⟩
  | restarts port => exact ⟨fun _ hx => absurd hx List.not_mem_nil, fun _ => lands_of_reset rfl (landings_abandon _ _)⟩
  | marks => exact agrees_freeze hs
  | yields picture => exact agrees_chain (yields_chain picture _) hs
  | idles => exact agrees_countRound hs
  | outcome settle sent report _ hpart _ => exact agrees_counted (parcelOutcome_counted settle sent report hpart) hs
  | takesReturn asked driven k result _ _ _ _ hawaiting =>
    refine ⟨tagsAgree_of_free (s := s) (fun _ => id) (fun i hi => ?_) hs.1, fun hheld => ?_⟩
    · change ((s.setSlot k _).slot i).state = _
      rw [State.slot_setSlot, if_neg fun h => by simp [h ▸ hawaiting] at hi]
      exact hi
    · exact lands_setSlot (s := s) (by simp [hawaiting]) (by simp) (hs.2 hheld)
  | closes ask driven o => exact agrees_counted (closing_counted o) hs
  | expires t => exact agrees_chain (expires_chain s t) hs
  | writes x rest a ending _ hstate => exact agrees_chain (writes_chain x ending hstate) hs
  | reads x rest a ending _ hstate => exact agrees_chain (reads_chain x ending hstate) hs
  | lands t a status hheld hstate =>
    refine agrees_done ⟨?_, fun _ => lands_landed status hstate (hs.2 hheld)⟩
    rw [State.pathFallsFree_frame]
    refine tagsAgree_of_free (s := s) (fun _ => id) (fun i hi => ?_) hs.1
    change ((s.setSlot t freeSlot).slot i).state = _
    rw [State.slot_setSlot]
    split
    · rfl
    · exact hi
  | frees a hstate =>
    refine ⟨by rw [State.pathFallsFree_frame]; exact hs.1, fun hheld => ?_⟩
    rw [State.pathFallsFree_frame] at hheld
    exact lands_pathFallsFree (by simp [landings, hstate]) (hs.2 hheld)
  | queues k d port =>
    refine ⟨fun x hx => ?_, hs.2⟩
    rcases List.mem_append.mp hx with hx | hx
    · exact hs.1 x hx
    · rw [List.mem_singleton.mp hx]
      cases k <;> rfl
  | masks mask => exact agrees_port (agrees_done (e := s.applyMask mask) hs)
  | pops record rest => cases record <;> exact hs
  | _ => exact hs

/-- Settles O18: both laws act by act, and a frozen FETCH with the lowest FREE slot as its tag. -/
theorem fetchTableKept : Obligations.FetchTableKept := by
  intro s t htags hlands hstep
  rcases step_happens hstep with rfl | ⟨c, rest, h⟩
  · exact ⟨htags, hlands⟩
  · exact agrees_happens h ⟨htags, hlands⟩

end Sys2Proof.FetchTable
end

section
/-! Who writes the registers of the station controller, how the station state moves, and what stands until a reset (08 sections 8.8 and 8.9, 09 sections
9.2 to 9.4): each a law of the acts (R22, R142, R144, R148, R150, R152, R155). -/

namespace Sys2Proof.Controller

open Sys2Proof.Machine Sys2Proof.Safety Sys2Proof.Events Sys2Proof.Acts Sys2Proof.Selector Sys2Proof.Ranges Sys2Proof.FetchTable

variable {p : Part} {s : State} {e : Effect}

/-! ## The registers -/

/-- An act leaves the configuration, and the turn record except at a parcel outcome. -/
theorem act_registers (h : Act p s e) : e.1.config = s.config ∧ (p ≠ .outcome → e.1.turn = s.turn) := by
  cases h with
  | turn r hp _ => exact ⟨rfl, fun hne => absurd hp hne⟩
  | fault r => exact ⟨by simp, fun _ => by simp⟩
  | slotLands t data =>
    rw [quiet_fst, land_frame]
    exact ⟨rfl, fun _ => rfl⟩
  | _ => exact ⟨rfl, fun _ => rfl⟩

theorem chain_config (h : Chain p s e) : e.1.config = s.config :=
  h.preserves (Law := fun t => t.config = s.config) (fun _ _ hact hlaw => (act_registers hact).1.trans hlaw) rfl

theorem chain_turn (hp : p ≠ .outcome) (h : Chain p s e) : e.1.turn = s.turn :=
  h.preserves (Law := fun t => t.turn = s.turn) (fun _ _ hact hlaw => ((act_registers hact).2 hp).trans hlaw) rfl

theorem done_config (e : Effect) : e.done.config = e.1.config := rfl

theorem done_turn (e : Effect) : e.done.turn = e.1.turn := rfl

theorem done_strap (e : Effect) : e.done.strap = e.1.strap := rfl

theorem chain_held (h : Chain p s e) : e.1.held = s.held :=
  h.preserves (Law := fun t => t.held = s.held) (fun _ _ hact hlaw => (act_held hact).trans hlaw) rfl

/-- The end of a counted round: the join watch, the station state and the HELLO (R157, R158). -/
theorem countRound_frame (s : State) :
    s.countRound =
      { s with joinWatch := s.countRound.joinWatch, station := s.countRound.station, helloPending := s.countRound.helloPending } := by
  rcases s.countRound_cases with ⟨-, h⟩ | ⟨-, -, h⟩ | ⟨-, -, h⟩ <;> rw [h]

theorem counted_held (h : Counted p s e) : e.1.held = s.held := by
  rcases h with h | ⟨e', h, rfl⟩
  · exact chain_held h
  · exact (congrArg State.held (countRound_frame e'.1)).trans (chain_held h)

theorem counted_config (h : Counted p s e) : e.1.config = s.config := by
  rcases h with h | ⟨e', h, rfl⟩
  · exact chain_config h
  · exact (congrArg State.config (countRound_frame e'.1)).trans (chain_config h)

theorem counted_turn (hp : p ≠ .outcome) (h : Counted p s e) : e.1.turn = s.turn := by
  rcases h with h | ⟨e', h, rfl⟩
  · exact chain_turn hp h
  · exact (congrArg State.turn (countRound_frame e'.1)).trans (chain_turn hp h)

theorem counted_strap (h : Counted p s e) : e.1.strap = s.strap := by
  rcases h with h | ⟨e', h, rfl⟩
  · exact chain_strap h
  · exact (congrArg State.strap (countRound_frame e'.1)).trans (chain_strap h)

theorem freeze_registers (s : State) :
    (s.freeze s.offer).strap = s.strap ∧ (s.freeze s.offer).config = s.config ∧ (s.freeze s.offer).turn = s.turn ∧
      (s.freeze s.offer).station = s.station ∧ (s.freeze s.offer).contain = s.contain := by
  have h := freeze_offer s
  generalize s.freeze s.offer = t at h ⊢
  cases h <;> exact ⟨rfl, rfl, rfl, rfl, rfl⟩

theorem happens_strap {c : Instr} {t : State} (h : Happens s c t) (hc : Claims.releases c = false) : t.strap = s.strap := by
  cases h with
  | releases straps hrelease => rw [hrelease] at hc; cases hc
  | marks => exact (freeze_registers s).1
  | yields picture => exact chain_strap (yields_chain picture _)
  | idles => rw [countRound_frame]; rfl
  | outcome settle sent report _ hpart _ => exact (done_strap _).trans (counted_strap (parcelOutcome_counted settle sent report hpart))
  | closes ask driven o => exact (done_strap _).trans (counted_strap (closing_counted o))
  | expires t => exact (done_strap _).trans (chain_strap (expires_chain s t))
  | writes x rest a ending _ hstate => exact chain_strap (writes_chain x ending hstate)
  | reads x rest a ending _ hstate => exact chain_strap (reads_chain x ending hstate)
  | lands t a status => rw [State.pathFallsFree_frame]; rfl
  | frees => rw [State.pathFallsFree_frame]
  | masks mask => simp [Effect.done, State.applyMask]
  | pops record rest => cases record <;> rfl
  | _ => rfl

theorem happens_config {c : Instr} {t : State} (h : Happens s c t) (hc : Claims.releases c = false) :
    t.config = s.config ∨ Claims.starts c s = true ∧ s.station = .unstarted ∧ t.station = .listening := by
  cases h with
  | releases straps hrelease => rw [hrelease] at hc; cases hc
  | marks => exact .inl (freeze_registers s).2.1
  | yields picture => exact .inl (chain_config (yields_chain picture _))
  | idles => exact .inl (by rw [countRound_frame]; rfl)
  | outcome settle sent report _ hpart _ => exact .inl ((done_config _).trans (counted_config (parcelOutcome_counted settle sent report hpart)))
  | closes ask driven o => exact .inl ((done_config _).trans (counted_config (closing_counted o)))
  | expires t => exact .inl ((done_config _).trans (chain_config (expires_chain s t)))
  | writes x rest a ending _ hstate => exact .inl (chain_config (writes_chain x ending hstate))
  | reads x rest a ending _ hstate => exact .inl (chain_config (reads_chain x ending hstate))
  | lands t a status => exact .inl (by rw [State.pathFallsFree_frame]; rfl)
  | frees => exact .inl (by rw [State.pathFallsFree_frame])
  | joins config hstarts _ hunstarted => exact .inr ⟨hstarts, hunstarted, rfl⟩
  | masks mask => exact .inl (by simp [Effect.done, State.applyMask])
  | pops record rest => exact .inl (by cases record <;> rfl)
  | _ => exact .inl rfl

theorem happens_turn {c : Instr} {t : State} (h : Happens s c t) (hc : Claims.releases c = false) :
    t.turn = s.turn ∨ Claims.restarts c s = true ∨ Claims.isOutcome c = true := by
  cases h with
  | releases straps hrelease => rw [hrelease] at hc; cases hc
  | marks => exact .inl (freeze_registers s).2.2.1
  | yields picture => exact .inl (chain_turn (by simp) (yields_chain picture _))
  | idles => exact .inl (by rw [countRound_frame]; rfl)
  | outcome settle sent report houtcome => exact .inr (.inr houtcome)
  | closes ask driven o => exact .inl ((done_turn _).trans (counted_turn (by simp) (closing_counted o)))
  | expires t => exact .inl ((done_turn _).trans (chain_turn (by simp) (expires_chain s t)))
  | writes x rest a ending _ hstate => exact .inl (chain_turn (by simp) (writes_chain x ending hstate))
  | reads x rest a ending _ hstate => exact .inl (chain_turn (by simp) (reads_chain x ending hstate))
  | lands t a status => exact .inl (by rw [State.pathFallsFree_frame]; rfl)
  | frees => exact .inl (by rw [State.pathFallsFree_frame])
  | restarts port hrestarts => exact .inr (.inl hrestarts)
  | masks mask => exact .inl (by simp [Effect.done, State.applyMask])
  | pops record rest => exact .inl (by cases record <;> rfl)
  | _ => exact .inl rfl

/-- Settles O7: the acts leave the strap number and the configuration, and only a parcel outcome has one that writes the turn record. -/
theorem registersHaveTheirWriters : Obligations.RegistersHaveTheirWriters := by
  intro c s t hexec hc
  have h := exec_happens hexec
  exact ⟨happens_strap h hc, (happens_config h hc).resolve_left, (happens_turn h hc).resolve_left⟩

/-! ## What stands in the containment unit -/

/-- The containment flag with its cause, the state CONTAINED and the fault log of `s` stand in `t`. -/
structure Stands (s t : State) : Prop where
  flag : s.contain.flag = true → t.contain.flag = true ∧ t.contain.cause = s.contain.cause
  contained : s.station = .contained → t.station = .contained
  log : s.contain.log <+: t.contain.log
  overflow : s.contain.overflow ≤ t.contain.overflow
  full : s.contain.log.length = 4 → t.contain.log = s.contain.log

theorem stands_of_eq {t : State} (hstation : s.station = .contained → t.station = .contained) (hcontain : t.contain = s.contain) :
    Stands s t := by
  constructor
  · rw [hcontain]; exact fun h => ⟨h, rfl⟩
  · exact hstation
  · rw [hcontain]
  · rw [hcontain]
  · rw [hcontain]; exact fun _ => rfl

theorem Stands.trans {t u : State} (h : Stands s t) (h' : Stands t u) : Stands s u where
  flag hflag := by
    obtain ⟨ht, hcause⟩ := h.flag hflag
    obtain ⟨hu, hcause'⟩ := h'.flag ht
    exact ⟨hu, hcause'.trans hcause⟩
  contained := h'.contained ∘ h.contained
  log := h.log.trans h'.log
  overflow := h.overflow.trans h'.overflow
  full hfull := by
    have ht := h.full hfull
    exact (h'.full (ht ▸ hfull)).trans ht

theorem stands_addFault (r : FaultRecord) : Stands s (s.addFault r) := by
  rcases s.addFault_cases r with ⟨hlt, h⟩ | ⟨-, h⟩ <;> rw [h]
  · exact ⟨fun hflag => ⟨hflag, rfl⟩, id, List.prefix_append _ _, le_rfl, fun hfull => absurd hfull hlt.ne⟩
  · exact ⟨fun hflag => ⟨hflag, rfl⟩, id, List.prefix_rfl, le_bump _, fun _ => rfl⟩

theorem act_stands (h : Act p s e) : Stands s e.1 := by
  cases h with
  | fault r => exact stands_addFault r
  | offline _ hstation => exact stands_of_eq (fun h => by rcases hstation with h' | h' <;> cases h.symm.trans h') rfl
  | contained cause addr length hflag _ =>
    exact ⟨fun h => (Bool.eq_false_iff.mp hflag h).elim, fun _ => rfl, List.prefix_rfl, le_rfl, fun _ => rfl⟩
  | flagged _ _ hflag => exact ⟨fun h => (Bool.eq_false_iff.mp hflag h).elim, id, List.prefix_rfl, le_rfl, fun _ => rfl⟩
  | pending contain late => exact ⟨fun h => ⟨h, rfl⟩, id, List.prefix_rfl, le_rfl, fun _ => rfl⟩
  | slotLands t data =>
    rw [quiet_fst, land_frame]
    exact stands_of_eq id rfl
  | _ => exact stands_of_eq id rfl

theorem chain_stands (h : Chain p s e) : Stands s e.1 :=
  h.preserves (Law := Stands s) (fun _ _ hact hlaw => hlaw.trans (act_stands hact)) (stands_of_eq id rfl)

theorem countRound_stands (s : State) : Stands s s.countRound := by
  refine stands_of_eq (fun h => ?_) (by rw [countRound_frame])
  rcases s.countRound_cases with ⟨-, h'⟩ | ⟨h', -⟩ | ⟨h', -⟩
  · rw [h']; exact h
  · cases h.symm.trans h'
  · cases h.symm.trans h'

theorem counted_stands (h : Counted p s e) : Stands s e.1 := by
  rcases h with h | ⟨e', h, rfl⟩
  · exact chain_stands h
  · exact (chain_stands h).trans (countRound_stands _)

/-- What stands in a state stands after it has handed its records on. -/
theorem Stands.done (h : Stands s e.1) : Stands s e.done := ⟨h.flag, h.contained, h.log, h.overflow, h.full⟩

theorem Stands.port {t : State} {port : NodePort} (h : Stands s t) : Stands s { t with port := port } :=
  ⟨h.flag, h.contained, h.log, h.overflow, h.full⟩

theorem happens_stands {c : Instr} {t : State} (h : Happens s c t) :
    Stands s t ∨ Claims.releases c = true ∨ (Claims.restarts c s = true ∧ t.contain.log = s.contain.log ∧ t.contain.overflow = s.contain.overflow) ∨
      (Claims.clears c s = true ∧ t.contain.flag = s.contain.flag ∧ t.contain.cause = s.contain.cause ∧ t.station = s.station) := by
  cases h with
  | releases straps hrelease => exact .inr (.inl (hrelease ▸ rfl))
  | restarts port hrestarts => exact .inr (.inr (.inl ⟨hrestarts, rfl, rfl⟩))
  | clears port hclears => exact .inr (.inr (.inr ⟨hclears, rfl, rfl, rfl⟩))
  | marks =>
    obtain ⟨-, -, -, hstation, hcontain⟩ := freeze_registers s
    exact .inl (stands_of_eq (fun h => hstation.trans h) hcontain)
  | yields picture => exact .inl (chain_stands (yields_chain picture _)).done
  | idles => exact .inl ((stands_of_eq (s := s) (t := s.endRound) id rfl).trans (countRound_stands _))
  | outcome settle sent report _ hpart _ => exact .inl (counted_stands (parcelOutcome_counted settle sent report hpart)).done
  | closes ask driven o => exact .inl (counted_stands (closing_counted o)).done
  | expires t => exact .inl (chain_stands (expires_chain s t)).done
  | writes x rest a ending _ hstate => exact .inl (chain_stands (writes_chain x ending hstate)).done
  | reads x rest a ending _ hstate => exact .inl (chain_stands (reads_chain x ending hstate)).done
  | lands t a status => exact .inl (stands_of_eq (by rw [State.pathFallsFree_frame]; exact id) (by rw [State.pathFallsFree_frame]; rfl))
  | frees => exact .inl (stands_of_eq (by rw [State.pathFallsFree_frame]; exact id) (by rw [State.pathFallsFree_frame]))
  | joins config _ _ hunstarted => exact .inl (stands_of_eq (fun h => by cases h.symm.trans hunstarted) rfl)
  | masks mask =>
    have hmasked : Stands s (s.applyMask mask).1 := stands_of_eq id rfl
    exact .inl hmasked.done.port
  | pops record rest => exact .inl (by cases record <;> exact stands_of_eq id rfl)
  | _ => exact .inl (stands_of_eq id rfl)

/-- Settles O9: what stands is kept by every act, and given up by a release, a RESTART and a CLEAR_FAULTS alone. -/
theorem faultsStandUntilReset : Obligations.FaultsStandUntilReset := by
  intro c s t hexec hrelease
  rcases happens_stands (exec_happens hexec) with h | h | ⟨hrestart, hlog, hover⟩ | ⟨hclear, hflag, hcause, hstation⟩
  · exact ⟨fun _ => ⟨h.flag, h.contained⟩, fun _ => ⟨h.log, h.overflow, h.full⟩⟩
  · rw [hrelease] at h; cases h
  · refine ⟨fun hno => ?_, fun _ => ?_⟩
    · rw [hrestart] at hno; cases hno
    · rw [hlog, hover]
      exact ⟨List.prefix_rfl, le_rfl, fun _ => rfl⟩
  · refine ⟨fun _ => ?_, fun hno => ?_⟩
    · rw [hflag, hcause, hstation]
      exact ⟨fun h => ⟨h, rfl⟩, id⟩
    · rw [hclear] at hno; cases hno

/-! ## How the station state moves -/

/-- The moves of the station state at an event of part `p` that ends no counted round: into CONTAINED with the flag, and into OFFLINE (R150). -/
def Moves (p : Part) (s t : State) : Prop :=
  t.station = s.station ∨
    (t.station = .contained ∧ t.contain.flag = true ∧
      (p = .outcome ∧ s.station = .active ∨ p = .memory ∧ s.station ≠ .contained ∧ s.station ≠ .offline)) ∨
    (p = .outcome ∧ (s.station = .listening ∨ s.station = .active) ∧ t.station = .offline)

theorem act_moves (h : Act p s e) : Moves p s e.1 := by
  cases h with
  | offline hp hstation => exact .inr (.inr ⟨hp, hstation, rfl⟩)
  | contained cause addr length _ hstation => exact .inr (.inl ⟨rfl, rfl, hstation⟩)
  | fault r => exact .inl (by simp)
  | slotLands t data => exact .inl (by rw [quiet_fst, land_frame])
  | _ => exact .inl rfl

theorem moves_trans {t u : State} (hstands : Stands t u) (h : Moves p s t) (h' : Moves p t u) : Moves p s u := by
  rcases h with h | ⟨hcontained, hflag, hfrom⟩ | ⟨hp, hfrom, hoffline⟩
  · rw [Moves, h] at h'
    exact h'
  · exact .inr (.inl ⟨hstands.contained hcontained, (hstands.flag hflag).1, hfrom⟩)
  · refine .inr (.inr ⟨hp, hfrom, ?_⟩)
    rcases h' with h' | ⟨-, -, ⟨-, h'⟩ | ⟨-, -, h'⟩⟩ | ⟨-, -, h'⟩
    · exact h'.trans hoffline
    · cases hoffline.symm.trans h'
    · exact absurd hoffline h'
    · exact h'

theorem chain_moves (h : Chain p s e) : Moves p s e.1 :=
  h.preserves (Law := Moves p s) (fun _ _ hact hlaw => moves_trans (act_stands hact) hlaw (act_moves hact)) (.inl rfl)

/-- The table of R150, for a command that is no release, no START and no RESTART. -/
def MovesAsListed (c : Instr) (s t : State) : Prop :=
  t.station = s.station ∨ (s.station = .listening ∧ t.station = .active ∧ t.joinWatch = 4 ∧ t.helloPending = true) ∨
    (s.station = .active ∧ t.station = .contained ∧ t.contain.flag = true) ∨
    ((s.station = .listening ∨ s.station = .active) ∧ Claims.isOutcome c = true ∧ t.station = .offline)

theorem movesAsListed_of_moves {c : Instr} {t : State} (hc : p = .outcome → Claims.isOutcome c = true)
    (hmemory : p = .memory → s.station ≠ .unstarted ∧ s.station ≠ .listening) (h : Moves p s t) : MovesAsListed c s t := by
  rcases h with h | ⟨hcontained, hflag, ⟨-, hactive⟩ | ⟨hp, hne, hne'⟩⟩ | ⟨hp, hfrom, hoffline⟩
  · exact .inl h
  · exact .inr (.inr (.inl ⟨hactive, hcontained, hflag⟩))
  · obtain ⟨hunstarted, hlistening⟩ := hmemory hp
    refine .inr (.inr (.inl ⟨?_, hcontained, hflag⟩))
    cases hs : s.station <;> simp_all
  · exact .inr (.inr (.inr ⟨hfrom, hc hp, hoffline⟩))

theorem movesAsListed_countRound {c : Instr} {t : State} (h : MovesAsListed c s t) : MovesAsListed c s t.countRound := by
  have hsame : t.station = .listening → t.station = s.station := fun hlistening => by
    rcases h with h | ⟨-, h, -⟩ | ⟨-, h, -⟩ | ⟨-, -, h⟩
    · exact h
    · cases hlistening.symm.trans h
    · cases hlistening.symm.trans h
    · cases hlistening.symm.trans h
  rcases t.countRound_cases with ⟨-, h'⟩ | ⟨hlistening, -, h'⟩ | ⟨hlistening, -, h'⟩ <;> rw [h']
  · exact h
  · exact .inl (hsame hlistening)
  · exact .inr (.inl ⟨(hsame hlistening).symm.trans hlistening, rfl, rfl, rfl⟩)

theorem MovesAsListed.done {c : Instr} (h : MovesAsListed c s e.1) : MovesAsListed c s e.done := h

theorem movesAsListed_counted {c : Instr} (hc : p = .outcome → Claims.isOutcome c = true) (hp : p ≠ .memory) (h : Counted p s e) :
    MovesAsListed c s e.1 := by
  rcases h with h | ⟨e', h, rfl⟩
  · exact movesAsListed_of_moves hc (fun h => absurd h hp) (chain_moves h)
  · exact movesAsListed_countRound (movesAsListed_of_moves hc (fun h => absurd h hp) (chain_moves h))

/-- A station that has an entry to apply has joined (R156). -/
theorem joined_of_inbound {x : InboundEntry} {rest : List InboundEntry} (hj : JoiningHolds s) (h : s.inbound = x :: rest) :
    s.station ≠ .unstarted ∧ s.station ≠ .listening := by
  refine ⟨fun hs => ?_, fun hs => ?_⟩
  · cases h.symm.trans (hj (.inl hs)).1
  · cases h.symm.trans (hj (.inr hs)).1

theorem happens_moves {c : Instr} {t : State} (hj : JoiningHolds s) (h : Happens s c t) :
    MovesAsListed c s t ∨ (Claims.releases c = true ∧ t.station = .unstarted ∧ ∃ straps, t = released s straps) ∨
      (Claims.starts c s = true ∧ s.station = .unstarted ∧ t.station = .listening) ∨
      (Claims.restarts c s = true ∧ t.station = .listening) := by
  cases h with
  | releases straps hrelease => exact .inr (.inl ⟨hrelease ▸ rfl, rfl, straps, rfl⟩)
  | joins config hstarts _ hunstarted => exact .inr (.inr (.inl ⟨hstarts, hunstarted, rfl⟩))
  | restarts port hrestarts => exact .inr (.inr (.inr ⟨hrestarts, rfl⟩))
  | marks => exact .inl (.inl (freeze_registers s).2.2.2.1)
  | yields picture =>
    exact .inl (movesAsListed_of_moves (p := .close) (fun h => by cases h) (fun h => by cases h) (chain_moves (yields_chain picture _)))
  | idles => exact .inl (movesAsListed_countRound (t := s.endRound) (.inl rfl))
  | outcome settle sent report houtcome hpart _ =>
    have hmoves := movesAsListed_counted (fun _ => houtcome) (by simp) (parcelOutcome_counted settle sent report hpart)
    exact .inl hmoves.done
  | closes ask driven o =>
    have hmoves : MovesAsListed c s (closing s o).1 := movesAsListed_counted (fun h => by cases h) (by simp) (closing_counted o)
    exact .inl hmoves.done
  | expires t =>
    exact .inl (movesAsListed_of_moves (p := .close) (fun h => by cases h) (fun h => by cases h) (chain_moves (expireFetch_chain t)))
  | writes x rest a ending _ hstate _ hinbound =>
    exact .inl (movesAsListed_of_moves (fun h => by cases h) (fun _ => joined_of_inbound hj hinbound) (chain_moves (writes_chain x ending hstate)))
  | reads x rest a ending _ hstate _ hinbound =>
    exact .inl (movesAsListed_of_moves (fun h => by cases h) (fun _ => joined_of_inbound hj hinbound) (chain_moves (reads_chain x ending hstate)))
  | lands t a status => exact .inl (.inl (by rw [State.pathFallsFree_frame]; rfl))
  | frees => exact .inl (.inl (by rw [State.pathFallsFree_frame]))
  | masks mask => exact .inl (.inl (by simp [Effect.done, State.applyMask]))
  | pops record rest => exact .inl (.inl (by cases record <;> rfl))
  | _ => exact .inl (.inl rfl)

/-- Settles O8: an act moves the station into CONTAINED or OFFLINE alone, and a counted round's end into ACTIVE. -/
theorem stationStateMovesAsListed : Obligations.StationStateMovesAsListed := by
  intro c s t hj hexec hne
  rcases happens_moves hj (exec_happens hexec) with (h | h | h | h) | ⟨hreleases, hunstarted, -⟩ | h | h
  · exact absurd h hne
  · exact .inr (.inr (.inl h))
  · exact .inr (.inr (.inr (.inl h)))
  · exact .inr (.inr (.inr (.inr (.inl h))))
  · exact .inl ⟨hreleases, hunstarted⟩
  · exact .inr (.inl h)
  · exact .inr (.inr (.inr (.inr (.inr h))))

end Sys2Proof.Controller
end

section
/-! A step and its command (00 section 0.4), the reset pin (09 section 9.3) and the act of RESTART (09 section 9.9). -/

namespace Sys2Proof.Resets

open Sys2Proof.Machine Sys2Proof.Safety Sys2Proof.Claims Sys2Proof.Events Sys2Proof.Acts Sys2Proof.Selector Sys2Proof.Budget Sys2Proof.Notices
  Sys2Proof.Ranges Sys2Proof.FetchTable Sys2Proof.Controller

variable {p : Part} {s : State} {e : Effect}

/-! ## A step -/

/-- Settles O1: the command in front is matched off the queue. -/
theorem stepRunsFrontCommand : Obligations.StepRunsFrontCommand :=
  ⟨fun _ _ _ => rfl, fun s hs => by rw [step, hs]⟩

theorem exec_total (c : Instr) (s : State) : ∃ t, exec c s = .next t := by cases c <;> exact ⟨_, rfl⟩

theorem act_pending (h : Act p s e) : e.1.pending = s.pending := by
  cases h with
  | fault r => simp
  | slotLands t data => rw [quiet_fst, land_frame]
  | _ => rfl

theorem done_pending (e : Effect) : e.done.pending = e.1.pending := rfl

theorem chain_pending (h : Chain p s e) : e.1.pending = s.pending :=
  h.preserves (Law := fun t => t.pending = s.pending) (fun _ _ hact hlaw => (act_pending hact).trans hlaw) rfl

theorem counted_pending (h : Counted p s e) : e.1.pending = s.pending := by
  rcases h with h | ⟨e', h, rfl⟩
  · exact chain_pending h
  · exact (congrArg State.pending (countRound_frame e'.1)).trans (chain_pending h)

/-- The queue of commands is left to the step (log 19). -/
theorem happens_pending {c : Instr} {t : State} (h : Happens s c t) : t.pending = s.pending := by
  cases h with
  | marks =>
    have h := freeze_offer s
    generalize s.freeze s.offer = t at h ⊢
    cases h <;> rfl
  | yields picture => exact chain_pending (yields_chain picture _)
  | idles => rw [countRound_frame]; rfl
  | outcome settle sent report _ hpart _ => exact (done_pending _).trans (counted_pending (parcelOutcome_counted settle sent report hpart))
  | closes ask driven o => exact (done_pending _).trans (counted_pending (closing_counted o))
  | expires t => exact (done_pending _).trans (chain_pending (expires_chain s t))
  | writes x rest a ending _ hstate => exact chain_pending (writes_chain x ending hstate)
  | reads x rest a ending _ hstate => exact chain_pending (reads_chain x ending hstate)
  | lands t a status => rw [State.pathFallsFree_frame]; rfl
  | frees => rw [State.pathFallsFree_frame]
  | masks mask => simp [Effect.done, State.applyMask]
  | pops record rest => cases record <;> rfl
  | _ => rfl

/-- Settles O2: `exec` has no branch but the next state, and no event touches the queue of commands. -/
theorem everyCommandCompletes : Obligations.EveryCommandCompletes := by
  intro c s
  obtain ⟨t, ht⟩ := exec_total c s
  exact ⟨t, ht, happens_pending (exec_happens ht)⟩

/-! ## The release of the pin -/

/-- The state of the path at a reset, access by access (R114). -/
theorem abandon_state (m : MemPath) :
    m.abandon.state = match m.state with
      | .free => .free
      | .busy _ a => .abandoned a
      | .abandoned a => .abandoned a := by
  cases h : m.state <;> simp [MemPath.abandon, h]

theorem reachOf_of_reset {strap : BitVec 4} (h : s.reach = reachReset strap) (d : Station) :
    s.reachOf d = { state := if d.val = strap.toNat then .self else .unknown, silence := 0, timer := .stopped } := by
  simp [State.reachOf, h, reachReset]

/-- Settles O3: the release is `State.resetWith` with the path abandoned. -/
theorem releaseGivesResetValues : Obligations.ReleaseGivesResetValues := by
  intro straps s
  refine ⟨_, rfl, rfl, rfl, rfl, rfl, rfl, rfl, rfl, rfl, rfl, fun d => reachOf_of_reset rfl d, fun i => ?_, rfl, rfl, rfl, ?_, fun n => ?_,
    rfl, rfl, fun i => ?_, fun i => ?_, rfl, fun i => ?_⟩
  · simp [State.slot, State.resetWith, slotsReset, freeSlot]
  · simp only [abandon_state]
    cases s.path.state <;> rfl
  · simp [State.signalOf, State.resetWith, signalsReset, idleSignal]
  · simp [NodePort.headerWord, State.resetWith, NodePort.reset]
  · simp [NodePort.dataWord, State.resetWith, NodePort.reset]
  · simp [State.resetWith, NodePort.reset]

/-! ## The assertion of the pin -/

/-- A station held in reset shows nothing (R151). -/
theorem readWindow_of_held (h : s.held = true) (offset : BitVec 8) : s.readWindow offset = 0 := by simp [State.readWindow, h]

/-- Settles O4: the station is `asserted`, and its path that of `MemPath.abandon`. -/
theorem assertSilencesStation : Obligations.AssertSilencesStation := by
  intro s
  obtain ⟨happly, hlanding, hserved, hbusy, hidle⟩ := MemPath.abandon_spec s.path
  refine ⟨asserted s, rfl, rfl, rfl, rfl, fun hheld => ?_, fun hheld => ?_, rfl, rfl, readWindow_of_held rfl⟩
  · simp [asserted, hheld]
  · have hpath : (asserted s).path = s.path.abandon := by simp [asserted, hheld]
    rw [hpath]
    exact ⟨happly, hlanding, hserved, hbusy, hidle⟩

/-- A station held in reset takes no part in rounds (R2, R151). -/
theorem takesPart_of_held (h : s.held = true) : s.takesPart = false := by simp [State.takesPart, h]

/-- Settles O5: every other command asks first whether the station is held in reset, or whether it takes part. -/
theorem heldStationIgnores : Obligations.HeldStationIgnores := by
  intro c s hheld
  have hpart := takesPart_of_held hheld
  refine ⟨fun hc => ?_, fun htake hassert hrelease hending => ?_⟩
  · subst hc
    simp [exec, execTake, hheld, State.returned]
  · cases c with
    | hardwareResetAssert => exact absurd rfl hassert
    | hardwareResetRelease => cases hrelease
    | abandonedAccessEnd ending => exact absurd rfl (hending ending)
    | take => exact absurd rfl htake
    | roundMark => simp [exec, execRoundMark, hpart]
    | callClose => simp [exec, execCallClose, hpart]
    | parcelWindow => simp [exec, execParcelWindow, hpart]
    | parcelOutcome => simp [exec, execParcelOutcome, hpart]
    | answerWindow => simp [exec, execAnswerWindow, hpart]
    | answerClose => simp [exec, execAnswerClose, hpart]
    | retryTimerExpiry => simp [exec, execRetryTimerExpiry, hheld]
    | fetchTimerExpiry => simp [exec, execFetchTimerExpiry, hheld]
    | applyWriteEnd => simp [exec, execApplyWriteEnd, hheld]
    | applyReadEnd => simp [exec, execApplyReadEnd, hheld]
    | landingEnd => simp [exec, execLandingEnd, hheld]
    | post => simp [exec, execPost, State.submission, hheld]
    | fetch => simp [exec, execFetch, State.submission, hheld]
    | signal => simp [exec, execSignal, State.submission, hheld]
    | undefinedKind => simp [exec, execUndefinedKind, State.submission, hheld]
    | start => simp [exec, execStart, State.submission, hheld]
    | restart => simp [exec, execRestart, State.submission, hheld]
    | setMask => simp [exec, execSetMask, State.submission, hheld]
    | ackSignal => simp [exec, execAckSignal, State.submission, hheld]
    | readFault => simp [exec, execReadFault, State.submission, hheld]
    | clearFaults => simp [exec, execClearFaults, State.submission, hheld]
    | readReach => simp [exec, execReadReach, State.submission, hheld]
    | registerWrite => simp [exec, execRegisterWrite, State.submission, hheld]

/-! ## The laws at reset -/

theorem slot_of_reset {strap : BitVec 4} (t : SlotNo) : (State.resetWith strap).slot t = freeSlot := by
  simp [State.slot, State.resetWith, slotsReset]

theorem signalOf_of_reset {strap : BitVec 4} (n : SignalNo) : (State.resetWith strap).signalOf n = idleSignal false := by
  simp [State.signalOf, State.resetWith, signalsReset]

/-- Settles O6: the station right after reset has nothing waiting, in flight, open or logged. -/
theorem resetMeetsEveryLaw : Obligations.ResetMeetsEveryLaw := by
  intro straps
  have hslot : ∀ t, ((State.resetWith straps).slot t).state = .free := fun t => by rw [slot_of_reset]; rfl
  have hsignal := signalOf_of_reset (strap := straps)
  refine ⟨?counts, capacity_of_empty rfl rfl rfl rfl, fun k => Nat.zero_le 1, signalsAgree_of_idle (fun n => ⟨false, hsignal n⟩) rfl, ?engine,
    ?head, ?round, ?contain, reachAgrees_of_reset rfl, fun _ => lands_of_reset rfl rfl, fun _ hx => absurd hx List.not_mem_nil, ?holding, ?waits,
    ?lanes, ?contained, ?pending, ?unstarted, ?joining, ?held, ?candidate⟩
  case counts =>
    refine (counts_iff _).mpr ⟨blockCounts_of_reset (strap := straps) rfl rfl rfl rfl (fun n => by rw [hsignal]; rfl) (Nat.zero_le _)
      (Nat.zero_le _), fun c hc => absurd hc List.not_mem_nil⟩
  case engine => simp [EngineAgrees, State.resetWith, MemPath.reset, serving]
  case head => simp [HeadAgrees, State.resetWith]
  case round => simp [RoundAgrees, State.resetWith, SpanUnit.reset, marks, State.source?, ownRound]
  case contain => simp [ContainmentAgrees, State.resetWith, ContainUnit.reset]
  case holding =>
    intro _
    have hnone : (State.resetWith straps).slots.toList.countP (fun f => f.state == .holding) = 0 := by
      change slotsReset.toList.countP _ = 0
      decide
    refine ⟨fun t ht => ?_, fun e he => absurd he List.not_mem_nil, ?_⟩
    · rw [hslot t] at ht; cases ht
    · rw [hnone]; exact Nat.zero_le _
  case waits =>
    intro t ht
    rw [hslot t] at ht
    rcases ht with ht | ht <;> cases ht
  case lanes => exact ⟨fun _ hx => absurd hx List.not_mem_nil, fun _ hx => absurd hx List.not_mem_nil⟩
  case contained => exact fun _ hc => by cases hc
  case pending => simp [PendingAgrees, State.resetWith, ContainUnit.reset]
  case unstarted => exact fun _ => ⟨rfl, rfl, rfl, rfl, rfl, rfl, rfl, rfl, rfl, rfl, rfl, rfl, rfl, rfl, rfl, rfl⟩
  case joining =>
    exact fun _ => ⟨rfl, rfl, rfl, hslot, rfl, rfl, rfl, fun n => by rw [hsignal]; rfl, rfl, rfl, rfl, rfl, Nat.zero_lt_succ 3⟩
  case held => exact fun hheld => by cases hheld
  case candidate => exact fun c hc => by cases hc

/-! ## RESTART -/

/-- Settles O56: `State.restarted`, block by block. -/
theorem restartRestartsEveryBlock : Obligations.RestartRestartsEveryBlock := by
  intro s hheld
  have hexec : exec .restart s = .next s.submitRestart := by simp [exec, execRestart, State.submission, hheld]
  obtain ⟨happly, hlanding, -, hbusy, hidle⟩ := MemPath.abandon_spec s.path
  refine ⟨fun hunstarted => ?_, fun hstarted => ⟨s.restarted.answer .accepted, ?_, rfl, fun d => reachOf_of_reset rfl d, fun i => ?_,
    fun n => ?_, ⟨happly, hlanding⟩, rfl, hbusy, hidle⟩⟩
  · rw [hexec, State.submitRestart, State.whenStarted, if_pos hunstarted]
    rfl
  · rw [hexec, State.submitRestart, State.whenStarted, if_neg hstarted]
  · simp [State.slot, State.restarted, State.answer, slotsReset]
  · simp [State.signalOf, State.restarted, State.answer, State.clearEpisodes, idleSignal]

end Sys2Proof.Resets
end

section
/-! The words of a parcel (11 sections 11.1 to 11.4): a field that was packed is read back, and a mask chooses the fields that a reader sees
(R183, R184, R186). -/

namespace Sys2Proof.Words

open Sys2Proof.Machine Sys2Proof.Claims

/-! ## Fields and masks -/

theorem bits_eq_extract (w : Word) (lo len : Nat) : bits w lo len = (w.extractLsb' lo len).toNat := by
  simp [bits, Nat.shiftRight_eq_div_pow]

/-- A mask that holds the whole field leaves it. -/
theorem bits_and_mask (w : Word) {mask : Word} {lo len : Nat} (h : mask.extractLsb' lo len = BitVec.allOnes len) :
    bits (w &&& mask) lo len = bits w lo len := by
  rw [bits_eq_extract, bits_eq_extract, BitVec.extractLsb'_and, h, BitVec.and_allOnes]

/-- Words that agree under a mask agree in the fields that the mask holds. -/
theorem bits_eq_of_mask {w x mask : Word} {lo len : Nat} (hmask : mask.extractLsb' lo len = BitVec.allOnes len)
    (h : w &&& mask = x &&& mask) : bits w lo len = bits x lo len := by
  rw [← bits_and_mask w hmask, h, bits_and_mask x hmask]

/-- The number that the fields of a word make up. -/
def fieldSum : List (Nat × Nat) → Nat
  | [] => 0
  | (v, b) :: rest => v * 2 ^ b + fieldSum rest

theorem fieldSum_eq (fields : List (Nat × Nat)) : (fields.map fun f => f.1 * 2 ^ f.2).sum = fieldSum fields := by
  induction fields with
  | nil => rfl
  | cons f rest ih => rw [List.map_cons, List.sum_cons, ih, fieldSum]

theorem fieldSum_cons (v b : Nat) (rest : List (Nat × Nat)) : fieldSum ((v, b) :: rest) = v * 2 ^ b + fieldSum rest := rfl

theorem fieldSum_nil : fieldSum [] = 0 := rfl

/-- A word packed from fields that fit it. -/
theorem pack_toNat {fields : List (Nat × Nat)} (h : fieldSum fields < 2 ^ 32) : (pack fields).toNat = fieldSum fields := by
  rw [pack, fieldSum_eq, BitVec.toNat_ofNat, Nat.mod_eq_of_lt h]

theorem bitOf_lt (b : Bool) : bitOf b < 2 ^ 1 := by cases b <;> decide

/-- The mask of one field. -/
def fieldMask (lo len : Nat) : Word := BitVec.ofNat 32 ((2 ^ len - 1) * 2 ^ lo)

theorem and_fieldMask_eq_zero {w : Word} {lo len : Nat} (h : bits w lo len = 0) : w &&& fieldMask lo len = 0 := by
  refine BitVec.eq_of_getLsbD_eq fun i hi => ?_
  rw [BitVec.getLsbD_and, fieldMask, BitVec.getLsbD_ofNat, Nat.mul_comm, Nat.testBit_two_pow_mul]
  simp only [Nat.testBit_two_pow_sub_one, hi, decide_true, Bool.true_and, show BitVec.getLsbD (0 : Word) i = false from BitVec.getLsbD_zero,
    Bool.and_eq_false_iff, decide_eq_false_iff_not]
  by_cases hlo : lo ≤ i
  · by_cases hlen : i - lo < len
    · left
      have hbit : (bits w lo len).testBit (i - lo) = w.getLsbD i := by
        rw [bits, Nat.testBit_mod_two_pow, Nat.testBit_div_two_pow, BitVec.testBit_toNat]
        simp [hlen, Nat.sub_add_cancel hlo]
      rw [← hbit, h, Nat.zero_testBit]
    · exact .inr (.inr hlen)
  · exact .inr (.inl (by simpa using hlo))

theorem and_or_eq_zero {w a b : Word} (ha : w &&& a = 0) (hb : w &&& b = 0) : w &&& (a ||| b) = 0 := by
  rw [BitVec.and_or_distrib_left, ha, hb]
  rfl

/-! ## The header -/

/-- The fields of a word that holds seven fields where header word 0 has them (TABLE 11-1). -/
theorem header_fields {w : Word} {k s d r o hp lp : Nat} (hw : w.toNat = k * 2 ^ 28 + (s * 2 ^ 24 + (d * 2 ^ 20 + (r * 2 ^ 19 + (o * 2 ^ 18 +
      (hp * 2 ^ 12 + lp * 2 ^ 8)))))) (hk : k < 16) (hs : s < 16) (hd : d < 16) (hr : r < 2) (ho : o < 2) (hhp : hp < 16) (hlp : lp < 16) :
    bits w 28 4 = k ∧ bits w 24 4 = s ∧ bits w 20 4 = d ∧ bits w 19 1 = r ∧ bits w 18 1 = o ∧ bits w 12 4 = hp ∧ bits w 8 4 = lp ∧
      bits w 16 2 = 0 ∧ bits w 0 8 = 0 := by
  unfold bits
  rw [hw]
  clear hw
  refine ⟨?_, ?_, ?_, ?_, ?_, ?_, ?_, ?_, ?_⟩ <;> omega

theorem headerWord0_fields {h : Header} (hkind : h.kind < 16) (hsender : h.sender < 16) (hdest : h.dest < 16) (hhp : h.hp < 16)
    (hlp : h.lp < 16) :
    bits (headerWords h).1 28 4 = h.kind ∧ bits (headerWords h).1 24 4 = h.sender ∧ bits (headerWords h).1 20 4 = h.dest ∧
      bits (headerWords h).1 19 1 = bitOf h.room ∧ bits (headerWords h).1 18 1 = bitOf h.lo ∧ bits (headerWords h).1 12 4 = h.hp ∧
      bits (headerWords h).1 8 4 = h.lp ∧ bits (headerWords h).1 16 2 = 0 ∧ bits (headerWords h).1 0 8 = 0 := by
  have hroom := bitOf_lt h.room
  have hlo := bitOf_lt h.lo
  refine header_fields ?_ hkind hsender hdest hroom hlo hhp hlp
  rw [headerWords, pack_toNat] <;> rw [fieldSum_cons, fieldSum_cons, fieldSum_cons, fieldSum_cons, fieldSum_cons, fieldSum_cons, fieldSum_cons,
    fieldSum_nil, Nat.add_zero]
  omega

theorem headerWord1_fields (h : Header) : bits (headerWords h).2 0 12 = h.high.toNat ∧ bits (headerWords h).2 12 20 = 0 := by
  have hlt := h.high.isLt
  have hw : (headerWords h).2.toNat = h.high.toNat := by
    rw [headerWords, pack_toNat] <;> rw [fieldSum_cons, fieldSum_nil, Nat.add_zero, Nat.pow_zero, Nat.mul_one]
    exact hlt.trans (by decide)
  rw [bits, bits, hw]
  generalize h.high.toNat = n at hlt ⊢
  omega

theorem bit_of_bits {w : Word} {i : Nat} {b : Bool} (h : bits w i 1 = bitOf b) : bit w i = b := by
  rw [bit, h]
  cases b <;> rfl

/-- What a header's words carry is what was put into them (R183). -/
theorem readHeader_headerWords {h : Header} (hkind : h.kind < 16) (hsender : h.sender < 16) (hdest : h.dest < 16) (hhp : h.hp < 16)
    (hlp : h.lp < 16) : readHeader (headerWords h).1 (headerWords h).2 = h := by
  obtain ⟨hk, hs, hd, hr, ho, hp, hl, -, -⟩ := headerWord0_fields hkind hsender hdest hhp hlp
  obtain ⟨hhigh, -⟩ := headerWord1_fields h
  simp only [readHeader, hk, hs, hd, hp, hl, hhigh, bit_of_bits hr, bit_of_bits ho, BitVec.ofNat_toNat, BitVec.setWidth_eq]

theorem headerWords_unassigned {h : Header} (hkind : h.kind < 16) (hsender : h.sender < 16) (hdest : h.dest < 16) (hhp : h.hp < 16)
    (hlp : h.lp < 16) : (headerWords h).1 &&& 0x000300FF#32 = 0 ∧ (headerWords h).2 &&& 0xFFFFF000#32 = 0 := by
  obtain ⟨-, -, -, -, -, -, -, hmid, hlow⟩ := headerWord0_fields hkind hsender hdest hhp hlp
  obtain ⟨-, hhigh⟩ := headerWord1_fields h
  have hmask : (0x000300FF#32 : Word) = fieldMask 16 2 ||| fieldMask 0 8 := by decide
  have hmask' : (0xFFFFF000#32 : Word) = fieldMask 12 20 := by decide
  rw [hmask, hmask']
  exact ⟨and_or_eq_zero (and_fieldMask_eq_zero hmid) (and_fieldMask_eq_zero hlow), and_fieldMask_eq_zero hhigh⟩

/-- The header that is read does not depend on the unassigned bits (R184). -/
theorem readHeader_of_mask {w0 w1 x0 x1 : Word} (h0 : w0 &&& 0xFFFCFF00#32 = x0 &&& 0xFFFCFF00#32) (h1 : w1 &&& 0xFFF#32 = x1 &&& 0xFFF#32) :
    readHeader w0 w1 = readHeader x0 x1 := by
  simp only [readHeader, bit, bits_eq_of_mask (lo := 28) (len := 4) (by decide) h0, bits_eq_of_mask (lo := 24) (len := 4) (by decide) h0,
    bits_eq_of_mask (lo := 20) (len := 4) (by decide) h0, bits_eq_of_mask (lo := 19) (len := 1) (by decide) h0,
    bits_eq_of_mask (lo := 18) (len := 1) (by decide) h0, bits_eq_of_mask (lo := 12) (len := 4) (by decide) h0,
    bits_eq_of_mask (lo := 8) (len := 4) (by decide) h0, bits_eq_of_mask (lo := 0) (len := 12) (by decide) h1]

/-! ## The first word of a body (TABLE 11-3) -/

theorem postWord_fields {n : Nat} (hn : n ≤ 16) : bits (pack [(n, 0)]) 0 5 = n ∧ bits (pack [(n, 0)]) 5 27 = 0 := by
  have hw : (pack [(n, 0)]).toNat = n := by
    rw [pack_toNat] <;> rw [fieldSum_cons, fieldSum_nil, Nat.pow_zero, Nat.mul_one, Nat.add_zero]
    omega
  rw [bits, bits, hw]
  omega

theorem fetchWord_fields {n k : Nat} (hn : n ≤ 16) (hk : k < 8) :
    bits (pack [(n, 0), (k, 8)]) 0 5 = n ∧ bits (pack [(n, 0), (k, 8)]) 8 4 = k ∧ bits (pack [(n, 0), (k, 8)]) 5 3 = 0 ∧
      bits (pack [(n, 0), (k, 8)]) 12 20 = 0 := by
  have hw : (pack [(n, 0), (k, 8)]).toNat = n + k * 2 ^ 8 := by
    rw [pack_toNat] <;> rw [fieldSum_cons, fieldSum_cons, fieldSum_nil, Nat.pow_zero, Nat.mul_one, Nat.add_zero]
    omega
  rw [bits, bits, bits, bits, hw]
  omega

theorem signalWord_fields {n : Nat} (hn : n < 16) : bits (pack [(n, 0)]) 0 4 = n ∧ bits (pack [(n, 0)]) 4 28 = 0 := by
  have hw : (pack [(n, 0)]).toNat = n := by
    rw [pack_toNat] <;> rw [fieldSum_cons, fieldSum_nil, Nat.pow_zero, Nat.mul_one, Nat.add_zero]
    omega
  rw [bits, bits, hw]
  omega

theorem returnWord_fields {k c : Nat} (hk : k < 16) (hc : c < 4) :
    bits (pack [(k, 8), (c, 16)]) 8 4 = k ∧ bits (pack [(k, 8), (c, 16)]) 16 2 = c ∧ bits (pack [(k, 8), (c, 16)]) 0 8 = 0 ∧
      bits (pack [(k, 8), (c, 16)]) 12 4 = 0 ∧ bits (pack [(k, 8), (c, 16)]) 18 14 = 0 := by
  have hw : (pack [(k, 8), (c, 16)]).toNat = k * 2 ^ 8 + c * 2 ^ 16 := by
    rw [pack_toNat] <;> rw [fieldSum_cons, fieldSum_cons, fieldSum_nil, Nat.add_zero]
    omega
  rw [bits, bits, bits, bits, bits, hw]
  omega

theorem helloWord_fields {a b : Nat} (ha : a < 2) (hb : b < 2) :
    bits (pack [(a, 0), (b, 1)]) 0 1 = a ∧ bits (pack [(a, 0), (b, 1)]) 1 1 = b ∧ bits (pack [(a, 0), (b, 1)]) 2 30 = 0 := by
  have hw : (pack [(a, 0), (b, 1)]).toNat = a + b * 2 ^ 1 := by
    rw [pack_toNat] <;> rw [fieldSum_cons, fieldSum_cons, fieldSum_nil, Nat.pow_zero, Nat.mul_one, Nat.add_zero]
    omega
  rw [bits, bits, bits, hw]
  omega

theorem containWord_fields {m c l n : Nat} (hm : m < 2) (hc : c < 2) (hl : l ≤ 16) (hn : n < 2 ^ 12) :
    let w := pack [(m, 0), (c, 1), (l, 8), (n, 16)]
    bits w 0 1 = m ∧ bits w 1 1 = c ∧ bits w 8 5 = l ∧ bits w 16 12 = n ∧ bits w 2 6 = 0 ∧ bits w 13 3 = 0 ∧ bits w 28 4 = 0 := by
  intro w
  have hw : w.toNat = m + (c * 2 ^ 1 + (l * 2 ^ 8 + n * 2 ^ 16)) := by
    rw [pack_toNat] <;> rw [fieldSum_cons, fieldSum_cons, fieldSum_cons, fieldSum_cons, fieldSum_nil, Nat.pow_zero, Nat.mul_one, Nat.add_zero]
    omega
  rw [bits, bits, bits, bits, bits, bits, bits, hw]
  omega

/-! ## How a body is read -/

theorem validLength_iff (n : Nat) : validLength n = true ↔ 1 ≤ n ∧ n ≤ 16 := by simp [validLength]

theorem readBody_post (w addr : Word) (data : List Word) : readBody 1 (w :: addr :: data) =
    if validLength (bits w 0 5) && data.length == bits w 0 5 then some (.post addr data) else none := rfl

theorem readBody_fetch (w addr : Word) : readBody 2 [w, addr] =
    if h : bits w 8 4 < 8 then if validLength (bits w 0 5) then some (.fetch addr (bits w 0 5) ⟨bits w 8 4, h⟩) else none else none := rfl

theorem readBody_signal (w : Word) : readBody 3 [w] = some (.signal (Fin.ofNat 16 (bits w 0 4))) := rfl

theorem readBody_return (w : Word) (data : List Word) : readBody 4 (w :: data) =
    if bits w 16 2 == 0 then
      if validLength data.length then some (.ret (Fin.ofNat 16 (bits w 8 4)) (.ok data)) else none
    else if bits w 16 2 == 1 && data.isEmpty then some (.ret (Fin.ofNat 16 (bits w 8 4)) .readError)
    else none := rfl

theorem readBody_hello (w : Word) : readBody 8 [w] = some (.hello (classOf (bit w 0)) (policyOf (bit w 1))) := rfl

theorem readBody_contain (w addr : Word) : readBody 9 [w, addr] =
    if validLength (bits w 8 5) then
      some (.contain (if bit w 0 then .halted else .reported) (if bit w 1 then .implicated else .applyFault)
        (BitVec.ofNat 12 (bits w 16 12)) addr (bits w 8 5))
    else none := rfl

/-- Parcels of an undefined kind are malformed (R184). -/
theorem readBody_undefined {kind : Nat} (h : kind ∉ [1, 2, 3, 4, 8, 9]) (words : List Word) : readBody kind words = none := by
  unfold readBody
  split <;> simp_all

/-! ## Every well-formed body -/

/-- The parcel's words carry the body, as the tables lay it out, with zero in the unassigned bits (R183, R184). -/
def Carried (b : Body) : Prop :=
  readBody b.kindCode (bodyWords b) = some b ∧ BodyLaidOut b.kindCode (bodyWords b) b ∧
    ∃ w rest, bodyWords b = w :: rest ∧ w &&& ~~~(assigned b.kindCode) = 0

theorem fin_ofNat_val {n : Nat} [NeZero n] (k : Fin n) : Fin.ofNat n k.val = k := Fin.ext (Nat.mod_eq_of_lt k.isLt)

theorem carried_post (addr : Word) (data : List Word) (hone : 1 ≤ data.length) (hlength : data.length ≤ 16) : Carried (.post addr data) := by
  obtain ⟨hn, hzero⟩ := postWord_fields hlength
  have hmask : ~~~(assigned 1) = fieldMask 5 27 := by decide
  refine ⟨?_, ⟨rfl, _, rfl, hn⟩, _, _, rfl, hmask ▸ and_fieldMask_eq_zero hzero⟩
  show readBody 1 (_ :: addr :: data) = _
  rw [readBody_post, hn, if_pos (by simpa using (validLength_iff _).mpr ⟨hone, hlength⟩)]

theorem carried_fetch (addr : Word) (length : Nat) (tag : SlotNo) (hone : 1 ≤ length) (hlength : length ≤ 16) :
    Carried (.fetch addr length tag) := by
  obtain ⟨hn, hk, hmid, hhigh⟩ := fetchWord_fields hlength tag.isLt
  have hmask : ~~~(assigned 2) = fieldMask 5 3 ||| fieldMask 12 20 := by decide
  refine ⟨?_, ⟨rfl, _, rfl, hn, hk⟩, _, _, rfl, hmask ▸ and_or_eq_zero (and_fieldMask_eq_zero hmid) (and_fieldMask_eq_zero hhigh)⟩
  show readBody 2 [_, addr] = _
  have hvalid := (validLength_iff length).mpr ⟨hone, hlength⟩
  simp only [readBody_fetch, hn, hk, tag.isLt, hvalid, dif_pos, if_true]

theorem carried_signal (n : SignalNo) : Carried (.signal n) := by
  obtain ⟨hn, hzero⟩ := signalWord_fields n.isLt
  have hmask : ~~~(assigned 3) = fieldMask 4 28 := by decide
  refine ⟨?_, ⟨rfl, _, rfl, hn⟩, _, _, rfl, hmask ▸ and_fieldMask_eq_zero hzero⟩
  show readBody 3 [_] = _
  rw [readBody_signal, hn, fin_ofNat_val]

theorem returnWord_unassigned {k c : Nat} (hk : k < 16) (hc : c < 4) : pack [(k, 8), (c, 16)] &&& ~~~(assigned 4) = 0 := by
  obtain ⟨-, -, hlow, hmid, hhigh⟩ := returnWord_fields hk hc
  have hmask : ~~~(assigned 4) = fieldMask 0 8 ||| (fieldMask 12 4 ||| fieldMask 18 14) := by decide
  rw [hmask]
  exact and_or_eq_zero (and_fieldMask_eq_zero hlow) (and_or_eq_zero (and_fieldMask_eq_zero hmid) (and_fieldMask_eq_zero hhigh))

theorem carried_return_ok (tag : Fin 16) (data : List Word) (hone : 1 ≤ data.length) (hlength : data.length ≤ 16) :
    Carried (.ret tag (.ok data)) := by
  obtain ⟨hk, hc, -⟩ := returnWord_fields tag.isLt (Nat.zero_lt_succ 3)
  refine ⟨?_, ⟨rfl, _, rfl, hk, hc⟩, _, _, rfl, returnWord_unassigned tag.isLt (Nat.zero_lt_succ 3)⟩
  show readBody 4 (_ :: data) = _
  rw [readBody_return, hc, hk, if_pos (beq_self_eq_true 0), if_pos ((validLength_iff _).mpr ⟨hone, hlength⟩), fin_ofNat_val]

theorem carried_return_error (tag : Fin 16) : Carried (.ret tag .readError) := by
  obtain ⟨hk, hc, -⟩ := returnWord_fields tag.isLt (by decide : 1 < 4)
  refine ⟨?_, ⟨rfl, _, rfl, hk, hc⟩, _, _, rfl, returnWord_unassigned tag.isLt (by decide)⟩
  show readBody 4 [_] = _
  rw [readBody_return, hc, hk, fin_ofNat_val]
  rfl

theorem carried_hello (cls : StationClass) (policy : Policy) : Carried (.hello cls policy) := by
  have hcls : classCode cls < 2 := by cases cls <;> decide
  have hpolicy : policyCode policy < 2 := by cases policy <;> decide
  obtain ⟨hc, hp, hzero⟩ := helloWord_fields hcls hpolicy
  have hmask : ~~~(assigned 8) = fieldMask 2 30 := by decide
  refine ⟨?_, ⟨rfl, _, rfl, hc.trans (by cases cls <;> rfl), hp.trans (by cases policy <;> rfl)⟩, _, _, rfl,
    hmask ▸ and_fieldMask_eq_zero hzero⟩
  show readBody 8 [_] = _
  rw [readBody_hello, bit, bit, hc, hp]
  cases cls <;> cases policy <;> rfl

theorem carried_contain (mode : ContainMode) (cause : FaultCause) (named : StationSet) (addr : Word) (length : Nat) (hone : 1 ≤ length)
    (hlength : length ≤ 16) : Carried (.contain mode cause named addr length) := by
  have hmode : modeCode mode < 2 := by cases mode <;> decide
  have hcause : causeCode cause < 2 := by cases cause <;> decide
  obtain ⟨hm, hc, hl, hn, hlow, hmid, hhigh⟩ := containWord_fields hmode hcause hlength named.isLt
  have hmask : ~~~(assigned 9) = fieldMask 2 6 ||| (fieldMask 13 3 ||| fieldMask 28 4) := by decide
  refine ⟨?_, ⟨rfl, _, rfl, hm.trans (by cases mode <;> rfl), hc.symm ▸ (by cases cause <;> decide), hl, hn⟩, _, _, rfl, hmask ▸
    and_or_eq_zero (and_fieldMask_eq_zero hlow) (and_or_eq_zero (and_fieldMask_eq_zero hmid) (and_fieldMask_eq_zero hhigh))⟩
  show readBody 9 [_, addr] = _
  rw [readBody_contain, hl, hn, bit, bit, hm, hc, if_pos ((validLength_iff _).mpr ⟨hone, hlength⟩), BitVec.ofNat_toNat, BitVec.setWidth_eq]
  cases mode <;> cases cause <;> rfl

/-! ## What a reader ignores, and what it refuses -/

/-- A body that is read does not depend on the unassigned bits of its first word (R184). -/
theorem readBody_of_mask {kind : Nat} {w x : Word} (rest : List Word) (h : w &&& assigned kind = x &&& assigned kind) :
    readBody kind (w :: rest) = readBody kind (x :: rest) := by
  by_cases hkind : kind ∈ [1, 2, 3, 4, 8, 9]
  · simp only [List.mem_cons, List.not_mem_nil, or_false] at hkind
    rcases hkind with rfl | rfl | rfl | rfl | rfl | rfl
    · have hn := bits_eq_of_mask (lo := 0) (len := 5) (by decide) h
      rcases rest with _ | ⟨addr, data⟩
      · rfl
      · rw [readBody_post, readBody_post, hn]
    · have hn := bits_eq_of_mask (lo := 0) (len := 5) (by decide) h
      have hk := bits_eq_of_mask (lo := 8) (len := 4) (by decide) h
      rcases rest with _ | ⟨addr, _ | ⟨y, ys⟩⟩
      · rfl
      · simp only [readBody_fetch, hn, hk]
      · rfl
    · have hn := bits_eq_of_mask (lo := 0) (len := 4) (by decide) h
      rcases rest with _ | ⟨y, ys⟩
      · rw [readBody_signal, readBody_signal, hn]
      · rfl
    · have hk := bits_eq_of_mask (lo := 8) (len := 4) (by decide) h
      have hc := bits_eq_of_mask (lo := 16) (len := 2) (by decide) h
      rw [readBody_return, readBody_return, hk, hc]
    · have hc := bits_eq_of_mask (lo := 0) (len := 1) (by decide) h
      have hp := bits_eq_of_mask (lo := 1) (len := 1) (by decide) h
      rcases rest with _ | ⟨y, ys⟩
      · rw [readBody_hello, readBody_hello, bit, bit, bit, bit, hc, hp]
      · rfl
    · have hm := bits_eq_of_mask (lo := 0) (len := 1) (by decide) h
      have hc := bits_eq_of_mask (lo := 1) (len := 1) (by decide) h
      have hl := bits_eq_of_mask (lo := 8) (len := 5) (by decide) h
      have hn := bits_eq_of_mask (lo := 16) (len := 12) (by decide) h
      rcases rest with _ | ⟨addr, _ | ⟨y, ys⟩⟩
      · rfl
      · rw [readBody_contain, readBody_contain, bit, bit, bit, bit, hm, hc, hl, hn]
      · rfl
  · rw [readBody_undefined hkind, readBody_undefined hkind]

/-- A body is read from exactly the parcels that are not malformed (R184). -/
theorem readBody_eq_none_iff (kind : Nat) (words : List Word) : readBody kind words = none ↔ Malformed kind words := by
  by_cases hkind : kind ∈ [1, 2, 3, 4, 8, 9]
  · simp only [List.mem_cons, List.not_mem_nil, or_false] at hkind
    rcases hkind with rfl | rfl | rfl | rfl | rfl | rfl
    · rcases words with _ | ⟨w, _ | ⟨addr, data⟩⟩
      · simp [Malformed, readBody]
      · simp [Malformed, readBody]
      · simp only [readBody_post, Malformed, List.headD_cons, List.length_cons, ite_eq_right_iff, reduceCtorEq, imp_false,
          Bool.and_eq_true, validLength_iff, beq_iff_eq]
        omega
    · rcases words with _ | ⟨w, _ | ⟨addr, _ | ⟨y, ys⟩⟩⟩
      · simp [Malformed, readBody]
      · simp [Malformed, readBody]
      · have hvalid := validLength_iff (bits w 0 5)
        simp only [readBody_fetch, Malformed, List.headD_cons, List.length_cons, List.length_nil]
        by_cases hk : bits w 8 4 < 8
        · by_cases hl : validLength (bits w 0 5) = true
          · have := hvalid.mp hl
            rw [dif_pos hk, if_pos hl]
            simp only [reduceCtorEq, false_iff]
            omega
          · have := mt hvalid.mpr hl
            rw [dif_pos hk, if_neg hl]
            simp only [true_iff]
            omega
        · rw [dif_neg hk]
          simp only [true_iff]
          omega
      · simp [Malformed, readBody]
    · rcases words with _ | ⟨w, _ | ⟨y, ys⟩⟩ <;> simp [Malformed, readBody]
    · rcases words with _ | ⟨w, data⟩
      · simp [Malformed, readBody]
      · have hvalid := validLength_iff data.length
        have hempty : data.isEmpty = true ↔ data.length = 0 := by simp
        have hlt : bits w 16 2 < 4 := Nat.mod_lt _ (by decide)
        rw [readBody_return]
        simp only [Malformed, List.headD_cons, List.length_cons, reduceCtorEq, false_or]
        by_cases hc : bits w 16 2 = 0
        · by_cases hl : validLength data.length = true
          · have := hvalid.mp hl
            rw [if_pos (beq_iff_eq.mpr hc), if_pos hl]
            simp only [reduceCtorEq, false_iff]
            omega
          · have := mt hvalid.mpr hl
            rw [if_pos (beq_iff_eq.mpr hc), if_neg hl]
            simp only [true_iff]
            omega
        · rw [if_neg (mt beq_iff_eq.mp hc)]
          by_cases herror : bits w 16 2 = 1 ∧ data.isEmpty = true
          · have := hempty.mp herror.2
            rw [if_pos (by simpa using herror)]
            simp only [reduceCtorEq, false_iff]
            omega
          · have hlong : bits w 16 2 = 1 → data.length ≠ 0 := fun h1 h0 => herror ⟨h1, hempty.mpr h0⟩
            rw [if_neg (by simpa using herror)]
            simp only [true_iff]
            omega
    · rcases words with _ | ⟨w, _ | ⟨y, ys⟩⟩ <;> simp [Malformed, readBody]
    · rcases words with _ | ⟨w, _ | ⟨addr, _ | ⟨y, ys⟩⟩⟩
      · simp [Malformed, readBody]
      · simp [Malformed, readBody]
      · simp only [readBody_contain, Malformed, List.headD_cons, List.length_cons, List.length_nil, ite_eq_right_iff, reduceCtorEq, imp_false,
          validLength_iff]
        omega
      · simp [Malformed, readBody]
  · rw [readBody_undefined hkind]
    unfold Malformed
    simp only [List.mem_cons, List.not_mem_nil, or_false, not_or] at hkind
    obtain ⟨h1, h2, h3, h4, h8, h9⟩ := hkind
    split <;> simp_all

/-- Settles O38: the fields of the packed words are those packed, and each reader looks at the assigned bits alone. -/
theorem parcelWordsCarryHeaderAndBody : Obligations.ParcelWordsCarryHeaderAndBody := by
  refine ⟨fun h hkind hsender hdest hhp hlp => ?_, fun b hb => ?_, fun _ _ _ _ => readHeader_of_mask, fun _ _ _ rest => readBody_of_mask rest,
    readBody_eq_none_iff, fun a => by cases a <;> decide, by decide, by decide⟩
  · obtain ⟨hk, hs, hd, hr, ho, hp, hl, -, -⟩ := headerWord0_fields hkind hsender hdest hhp hlp
    exact ⟨readHeader_headerWords hkind hsender hdest hhp hlp, hk, hs, hd, hr, ho, hp, hl, (headerWord1_fields h).1,
      headerWords_unassigned hkind hsender hdest hhp hlp⟩
  · cases b with
    | post addr data => exact carried_post addr data hb.1 hb.2
    | fetch addr length tag => exact carried_fetch addr length tag hb.1 hb.2
    | signal n => exact carried_signal n
    | ret tag result =>
      cases result with
      | ok data => exact carried_return_ok tag data hb.1 hb.2
      | readError => exact carried_return_error tag
    | hello cls policy => exact carried_hello cls policy
    | contain mode cause named addr length => exact carried_contain mode cause named addr length hb.1 hb.2

end Sys2Proof.Words
end

section
/-! The round, the candidate and the in-flight marks (01 sections 1.2 to 1.5, 03 section 3.3, 06 section 6.5): what a parcel consumed leaves, and how
each event settles the mark of its candidate (R2, R3, R6, R7, R9 to R11, R43, R107). -/

namespace Sys2Proof.Rounds

open Sys2Proof.Machine Sys2Proof.Safety Sys2Proof.Events Sys2Proof.Acts Sys2Proof.Selector Sys2Proof.Ranges Sys2Proof.FetchTable
  Sys2Proof.Controller

variable {p : Part} {s : State} {e : Effect}

/-! ## What a parcel that is consumed leaves -/

theorem containConsumes_frame (s : State) (d : Station) (body : Option Body) :
    (s.containConsumes d body).1 =
      { s with
        station := (s.containConsumes d body).1.station, contain := (s.containConsumes d body).1.contain
        sendQueue := (s.containConsumes d body).1.sendQueue, slots := (s.containConsumes d body).1.slots
        engine := (s.containConsumes d body).1.engine, path := (s.containConsumes d body).1.path } := by
  unfold State.containConsumes
  split
  · split
    · exact State.implicated_frame _ _ _ _
    · rfl
  · rfl

/-- What the closing and the containment of one CONTAIN leave, whatever their orders (R67, R135; log 3). -/
def LeavesRound (s t : State) : Prop :=
  t = { s with
    station := t.station, contain := t.contain, sendQueue := t.sendQueue, reach := t.reach, slots := t.slots
    returns := t.returns, engine := t.engine, path := t.path, choices := t.choices }

theorem leavesRound_trans {t u : State} (h : LeavesRound s t) (h' : LeavesRound t u) : LeavesRound s u := by
  unfold LeavesRound at h h' ⊢
  rw [h] at h'
  exact h'

theorem leavesRound_andThen {f : State → Effect} (h : LeavesRound s e.1) (h' : ∀ t, LeavesRound t (f t).1) : LeavesRound s (e.andThen f).1 :=
  leavesRound_trans h (h' e.1)

theorem leavesRound_eitherOrder {first : Bool} {f g : State → Effect} (hf : ∀ s, LeavesRound s (f s).1) (hg : ∀ s, LeavesRound s (g s).1)
    (s : State) : LeavesRound s (eitherOrder first f g s).1 := by
  cases first with
  | true => exact leavesRound_trans (hf s) (hg _)
  | false => exact leavesRound_trans (hg s) (hf _)

theorem leavesRound_halting (s : State) (d : Station) (room : Bool) (addr : Word) (length : Nat) :
    LeavesRound s (halting s d room addr length) := by
  unfold halting
  dsimp only
  generalize State.reachOf _ d = x
  rcases (State.setReach (State.hear { s with choices := s.choices + 3 } d room) d { x with state := .contained, timer := .stopped }).addFault_cases
    (implicationRecord d addr length true) with ⟨-, h⟩ | ⟨-, h⟩ <;> rw [h] <;> rfl

theorem consume_leavesRound (s : State) (d : Station) (room : Bool) (body : Option Body) : LeavesRound s (s.consume d room body).1 := by
  rcases consume_cases s d room body with ⟨-, cause, named, addr, length, -, h⟩ | ⟨-, h⟩ <;> rw [h]
  · obtain ⟨laneFirst, slotsFirst, dropFirst, h⟩ := haltedBy_eq s d room addr length
    rw [h]
    refine leavesRound_andThen (leavesRound_andThen (leavesRound_andThen
      (leavesRound_trans (leavesRound_halting s d room addr length) ?_) fun t => ?_) fun t => ?_) fun t => rfl
    · exact leavesRound_eitherOrder (f := fun s => s.closeLane d .destContained) (g := State.flushSends) (fun _ => rfl) (fun _ => rfl) _
    · exact leavesRound_eitherOrder (f := fun s => s.failSlotsFor d .destContained) (g := State.flushSlots) (fun _ => rfl) (fun _ => rfl) _
    · refine leavesRound_eitherOrder (fun s => ?_) (fun s => ?_) _
      · rw [quiet_fst, State.dropReturns_frame]
        rfl
      · rcases s.stopEngine_spec with ⟨-, h⟩ | ⟨-, h⟩ <;> rw [quiet_fst, h] <;> rfl
  · rw [Effect.andThen_fst]
    refine leavesRound_trans (t := (s.reachConsumes d room body).1) ?_ ?_
    · rw [State.reachConsumes_frame]
      rfl
    · rw [containConsumes_frame]
      rfl

theorem consume_span (s : State) (d : Station) (room : Bool) (body : Option Body) : (s.consume d room body).1.span = s.span := by
  rw [consume_leavesRound s d room body]

/-- A parcel that is no well-formed HELLO or CONTAIN is heard and nothing more (R62, R66). -/
theorem consume_plain {body : Option Body} (h : Claims.plain body = true) (s : State) (d : Station) (room : Bool) :
    s.consume d room body = quiet (s.hear d room) := by
  cases body with
  | none => simp [State.consume, State.reachConsumes, State.containConsumes, State.haltsBoth]
  | some b =>
    cases b with
    | hello => cases h
    | contain => cases h
    | _ => simp [State.consume, State.reachConsumes, State.containConsumes, State.haltsBoth]

/-- The parcels that are answered are no broadcasts (R10). -/
theorem plain_of_addressed {kind : Nat} (h : addressedKind kind = true) (words : List Word) : Claims.plain (readBody kind words) = true := by
  unfold readBody
  split
  · split <;> rfl
  · split
    · split <;> rfl
    · rfl
  · rfl
  · split
    · split <;> rfl
    · split <;> rfl
  · simp [addressedKind] at h
  · simp [addressedKind] at h
  · rfl

/-! ## The in-flight marks -/

/-- Nothing is in flight. -/
def NoMarks (s : State) : Prop := s.sendQueue.countP (·.inFlight) = 0 ∧ s.returns.countP (·.inFlight) = 0

theorem countP_released {f : SendEntry → SendEntry} (hf : ∀ x, (f x).inFlight = false) (l : List SendEntry) :
    (l.map fun x => if x.inFlight then f x else x).countP (·.inFlight) = 0 := by
  rw [List.countP_eq_zero]
  intro y hy
  obtain ⟨x, -, rfl⟩ := List.mem_map.mp hy
  split
  · simp [hf]
  · assumption

theorem countP_removed (l : List SendEntry) : (l.filter fun x => !x.inFlight).countP (·.inFlight) = 0 := by
  rw [List.countP_eq_zero]
  intro y hy
  simpa using (List.mem_filter.mp hy).2

theorem countP_returns_released (l : List ReturnEntry) : (l.map fun r => { r with inFlight := false }).countP (·.inFlight) = 0 := by
  rw [List.countP_eq_zero]
  intro y hy
  obtain ⟨x, -, rfl⟩ := List.mem_map.mp hy
  simp

theorem countP_returns_removed (l : List ReturnEntry) : (l.filter fun r => !r.inFlight).countP (·.inFlight) = 0 := by
  rw [List.countP_eq_zero]
  intro y hy
  simpa using (List.mem_filter.mp hy).2

/-- No act puts an entry or a RETURN in flight (R3). -/
theorem act_marks (h : Act p s e) :
    e.1.sendQueue.countP (·.inFlight) ≤ s.sendQueue.countP (·.inFlight) ∧ e.1.returns.countP (·.inFlight) ≤ s.returns.countP (·.inFlight) := by
  cases h with
  | fault r => simp
  | slotLands t data =>
    rw [quiet_fst, land_frame]
    exact ⟨le_rfl, le_rfl⟩
  | releases f hf => exact ⟨(countP_released (fun x => (hf x).2.1) _).le.trans (Nat.zero_le _), le_rfl⟩
  | leaves keep groups => exact ⟨List.filter_sublist.countP_le, le_rfl⟩
  | fetches x addr length landing t => exact ⟨List.filter_sublist.countP_le, le_rfl⟩
  | returnsReleased => exact ⟨le_rfl, (countP_returns_released _).le.trans (Nat.zero_le _)⟩
  | returnsDropped keep => exact ⟨le_rfl, List.filter_sublist.countP_le⟩
  | returnJoins r hr => exact ⟨le_rfl, by simp [hr]⟩
  | _ => exact ⟨le_rfl, le_rfl⟩

theorem chain_marks (h : Chain p s e) :
    e.1.sendQueue.countP (·.inFlight) ≤ s.sendQueue.countP (·.inFlight) ∧ e.1.returns.countP (·.inFlight) ≤ s.returns.countP (·.inFlight) := by
  refine h.preserves (Law := fun t => t.sendQueue.countP (·.inFlight) ≤ s.sendQueue.countP (·.inFlight) ∧
    t.returns.countP (·.inFlight) ≤ s.returns.countP (·.inFlight)) ?_ ⟨le_rfl, le_rfl⟩
  rintro t e' hact ⟨hsend, hreturn⟩
  obtain ⟨hsend', hreturn'⟩ := act_marks hact
  exact ⟨hsend'.trans hsend, hreturn'.trans hreturn⟩

theorem chain_noMarks (h : Chain p s e) (hs : NoMarks s) : NoMarks e.1 := by
  obtain ⟨hsend, hreturn⟩ := chain_marks h
  exact ⟨Nat.le_zero.mp (hsend.trans hs.1.le), Nat.le_zero.mp (hreturn.trans hs.2.le)⟩

/-- At most what the candidate marks is in flight. -/
def Marked (s : State) : Prop :=
  s.sendQueue.countP (·.inFlight) ≤ marks .sendQueue s ∧ s.returns.countP (·.inFlight) ≤ marks .returnList s

theorem marked_of_round (h : RoundAgrees s) : Marked s := ⟨h.2.2.2.2.1.le, h.2.2.2.2.2.1.le⟩

theorem marks_eq_zero {source : Source} (h : s.source? ≠ some source) : marks source s = 0 := by simp [marks, h]

theorem noMarks_of_candidate_none (hm : Marked s) (h : s.span.candidate = none) : NoMarks s := by
  have hsource : s.source? = none := by simp [State.source?, h]
  rw [Marked, marks_eq_zero (by simp [hsource]), marks_eq_zero (by simp [hsource])] at hm
  exact ⟨Nat.le_zero.mp hm.1, Nat.le_zero.mp hm.2⟩

/-- A release takes the mark of its candidate (R43, R107). -/
theorem releaseCandidate_noMarks (hm : Marked s) : NoMarks s.releaseCandidate.1 := by
  obtain ⟨hsend, hreturn⟩ := hm
  have hsend' (h : s.source? ≠ some .sendQueue) : s.sendQueue.countP (·.inFlight) = 0 := Nat.le_zero.mp (marks_eq_zero h ▸ hsend)
  have hreturn' (h : s.source? ≠ some .returnList) : s.returns.countP (·.inFlight) = 0 := Nat.le_zero.mp (marks_eq_zero h ▸ hreturn)
  unfold State.releaseCandidate
  split
  · rename_i h
    split
    · exact ⟨countP_removed _, hreturn' (by simp [h])⟩
    · exact ⟨countP_released (fun _ => rfl) _, hreturn' (by simp [h])⟩
  · rename_i h
    exact ⟨hsend' (by simp [h]), countP_returns_released _⟩
  · rename_i h
    exact ⟨hsend' (by simp [h]), hreturn' (by simp [h])⟩
  · rename_i h
    exact ⟨hsend' (by simp [h]), hreturn' (by simp [h])⟩
  · rename_i h
    exact ⟨hsend' (by simp [h]), hreturn' (by simp [h])⟩

theorem releaseCandidate_span (s : State) : s.releaseCandidate.1.span = { s.span with candidate := none } := by
  rw [s.releaseCandidate_frame.1]
  rfl

/-! ## Settlement takes the mark -/

/-- Only the entries to `d` leave when its lane closes; where the one in flight is to `d`, none stays in flight. -/
theorem countP_closed {x : SendEntry} (hone : s.sendQueue.countP (·.inFlight) = 1) (hx : s.inFlightEntry = some x) :
    (s.sendQueue.filter fun y => y.dest != x.dest).countP (·.inFlight) = 0 := by
  rw [List.countP_eq_zero]
  intro y hy hflight
  obtain ⟨hmem, hne⟩ := List.mem_filter.mp hy
  have hxmem : x ∈ s.sendQueue := List.mem_of_find?_eq_some hx
  have hxflight : x.inFlight = true := by simpa using List.find?_some hx
  obtain ⟨z, hz⟩ := List.length_eq_one_iff.mp ((List.countP_eq_length_filter).symm.trans hone)
  have hyz : y ∈ [z] := hz ▸ List.mem_filter.mpr ⟨hmem, hflight⟩
  have hxz : x ∈ [z] := hz ▸ List.mem_filter.mpr ⟨hxmem, hxflight⟩
  rw [List.mem_singleton.mp hyz, List.mem_singleton.mp hxz] at hne
  simp at hne

theorem entryTaken_marks (x : SendEntry) : (s.entryTaken x).1.sendQueue.countP (·.inFlight) = 0 := by
  unfold State.entryTaken
  split <;> exact countP_removed _

theorem settleEntry_marks {x : SendEntry} (o : AnswerOutcome) (hone : s.sendQueue.countP (·.inFlight) = 1) (hx : s.inFlightEntry = some x) :
    (s.settleEntry x o).1.sendQueue.countP (·.inFlight) = 0 := by
  have hclosed : ∀ status, (s.closeLane x.dest status).1.sendQueue.countP (·.inFlight) = 0 := fun _ => countP_closed hone hx
  have hreleased : ((s.noReply x.dest).andThen fun s' => quiet s'.releaseInFlight).1.sendQueue.countP (·.inFlight) = 0 :=
    countP_released (fun _ => rfl) _
  cases o with
  | void => exact hreleased
  | silent => exact hreleased
  | good code =>
    cases code with
    | taken => exact entryTaken_marks x
    | full =>
      simp only [State.settleEntry]
      split
      · have hraised : s.raiseFull.sendQueue.countP (·.inFlight) = 0 := countP_released (fun _ => rfl) _
        have hchain : Chain .close s.raiseFull (quiet (s.raiseFull.replyBusy x.dest)) := replyBusy_chain x.dest
        exact Nat.le_zero.mp ((chain_marks hchain).1.trans hraised.le)
      · exact hclosed .fullExhausted
    | outside => exact hclosed .outsideWindow
    | refused =>
      have hchain : Chain .close (s.closeLane x.dest .destContained).1 ((s.closeLane x.dest .destContained).1.replyRefused x.dest) :=
        replyRefused_chain x.dest
      exact Nat.le_zero.mp ((chain_marks hchain).1.trans (hclosed _).le)
    | stale => exact countP_released (fun _ => rfl) _

theorem settleContained_marks (x : SendEntry) (o : AnswerOutcome) : (s.settleContained x o).1.sendQueue.countP (·.inFlight) = 0 := by
  unfold State.settleContained
  rw [Effect.andThen_fst]
  have hchain : ∀ t : State, Chain .close t (t.bookAnswer x.dest o) := fun t => bookAnswer_chain x.dest o
  refine Nat.le_zero.mp ((chain_marks (hchain _)).1.trans (le_of_eq ?_))
  split
  · exact entryTaken_marks x
  · exact countP_removed _

theorem removeReturn_marks (s : State) : s.removeReturn.returns.countP (·.inFlight) = 0 := by
  rw [State.removeReturn_frame]
  exact countP_returns_removed _

theorem settleReturn_marks (d : Station) (o : AnswerOutcome) : (s.settleReturn d o).1.returns.countP (·.inFlight) = 0 := by
  have hnone : ((s.noReply d).andThen fun s' =>
      quiet (if (s'.reachOf d).state = .unreachable then s'.removeReturn else s'.releaseReturn)).1.returns.countP (·.inFlight) = 0 := by
    rw [Effect.andThen_fst, quiet_fst]
    split
    · exact removeReturn_marks _
    · exact countP_returns_released _
  unfold State.settleReturn
  split
  · exact removeReturn_marks _
  · exact removeReturn_marks _
  · exact removeReturn_marks _
  · exact removeReturn_marks _
  · rw [Effect.quiet_andThen]
    have hchain : Chain .close s.removeReturn (s.removeReturn.replyRefused d) := replyRefused_chain d
    exact Nat.le_zero.mp ((chain_marks hchain).2.trans (removeReturn_marks s).le)
  · exact hnone
  · exact hnone

/-- The answer close settles what the candidate marks (R11, R14). -/
theorem settleCandidate_noMarks (o : AnswerOutcome) (hsend : s.sendQueue.countP (·.inFlight) = marks .sendQueue s)
    (hreturn : s.returns.countP (·.inFlight) = marks .returnList s) : NoMarks (s.settleCandidate o).1 := by
  have hchain : Chain .close s (s.settleCandidate o) := settleCandidate_chain o
  have hle := chain_marks hchain
  unfold State.settleCandidate at hle ⊢
  split at hle
  · rename_i h
    have hzero : s.returns.countP (·.inFlight) = 0 := hreturn.trans (marks_eq_zero (by simp [h]))
    have hone : s.sendQueue.countP (·.inFlight) = 1 := hsend.trans (by simp [marks, h])
    split at hle
    · rename_i x hx
      refine ⟨?_, Nat.le_zero.mp (hle.2.trans hzero.le)⟩
      split
      · exact settleContained_marks x o
      · exact settleEntry_marks o hone hx
    · rename_i hnone
      rw [State.inFlightEntry, List.find?_eq_none] at hnone
      have : s.sendQueue.countP (·.inFlight) = 0 := List.countP_eq_zero.mpr hnone
      omega
  · rename_i h
    have hzero : s.sendQueue.countP (·.inFlight) = 0 := hsend.trans (marks_eq_zero (by simp [h]))
    have hone : s.returns.countP (·.inFlight) = 1 := hreturn.trans (by simp [marks, h])
    split at hle
    · exact ⟨Nat.le_zero.mp (hle.1.trans hzero.le), settleReturn_marks _ o⟩
    · rename_i hnone
      rw [State.inFlightReturn, List.find?_eq_none] at hnone
      have : s.returns.countP (·.inFlight) = 0 := List.countP_eq_zero.mpr hnone
      omega
  · rename_i hsendQueue hreturnList
    exact ⟨hsend.trans (marks_eq_zero hsendQueue), hreturn.trans (marks_eq_zero hreturnList)⟩

end Sys2Proof.Rounds
end

section
/-! Every command keeps the round, its candidate and the in-flight marks in agreement (01 sections 1.2 to 1.5): a round ends with nothing in flight, or
goes on to an answer window with its candidate (R2, R3, R6, R7, R9 to R11, R43, R107). -/

namespace Sys2Proof.RoundLaw

open Sys2Proof.Machine Sys2Proof.Safety Sys2Proof.Events Sys2Proof.Acts Sys2Proof.Selector Sys2Proof.Ranges Sys2Proof.FetchTable
  Sys2Proof.Controller Sys2Proof.Rounds

variable {p : Part} {s : State} {e : Effect}

/-! ## Rounds that have ended -/

/-- No round is in progress, and nothing is frozen or in flight. -/
structure Ended (s : State) : Prop where
  phase : s.span.phase = .none
  callMark : s.span.callMark = false
  candidate : s.span.candidate = none
  noMarks : NoMarks s

/-- What every command does with the laws of the round. -/
def Settled (s t : State) : Prop := RoundAgrees t ∧ (CandidateAgrees s → CandidateAgrees t)

theorem candidateAgrees_of_none (h : s.span.candidate = none) : CandidateAgrees s := fun c hc => by rw [h] at hc; cases hc

theorem Ended.settled {t : State} (h : Ended t) : Settled s t := by
  obtain ⟨hphase, hmark, hcandidate, hsend, hreturn⟩ := h
  refine ⟨⟨fun hne => absurd hphase hne, fun hm => ?_, fun hc => ?_, fun _ => hcandidate, ?_, ?_, by rw [hphase]; rfl⟩,
    fun _ => candidateAgrees_of_none hcandidate⟩
  · rw [hmark] at hm; cases hm
  · rw [hcandidate] at hc; cases hc
  · rw [hsend, marks_eq_zero (by simp [State.source?, hcandidate])]
  · rw [hreturn, marks_eq_zero (by simp [State.source?, hcandidate])]

theorem ended_endRound (h : NoMarks s) : Ended s.endRound := ⟨rfl, rfl, rfl, h⟩

theorem Ended.countRound (h : Ended s) : Ended s.countRound := by
  obtain ⟨hphase, hmark, hcandidate, hno⟩ := h
  rw [countRound_frame]
  exact ⟨hphase, hmark, hcandidate, hno⟩

theorem Ended.done (h : Ended e.1) : Ended e.done := ⟨h.phase, h.callMark, h.candidate, h.noMarks⟩

theorem Settled.done (h : Settled s e.1) : Settled s e.done := h

theorem Settled.port {t : State} {port : NodePort} (h : Settled s t) : Settled s { t with port := port } := h

/-! ## Events beside the round -/

/-- A state with the same span unit, the same marks, and a station that goes on as before. -/
theorem settled_of_span {t : State} (hs : RoundAgrees s) (hspan : t.span = s.span) (hstrap : t.strap = s.strap)
    (hsend : t.sendQueue.countP (·.inFlight) = s.sendQueue.countP (·.inFlight))
    (hreturn : t.returns.countP (·.inFlight) = s.returns.countP (·.inFlight)) (hpart : s.takesPart = true → t.takesPart = true)
    (hstation : s.station = .active ∨ s.station = .contained → t.station = .active ∨ t.station = .contained) : Settled s t := by
  obtain ⟨htakes, hmark, hcandidate, hreceives, hsends, hreturns, hown⟩ := hs
  have hmarks : ∀ source, marks source t = marks source s := fun source => by simp [marks, State.source?, hspan]
  refine ⟨⟨fun h => hpart (htakes (hspan ▸ h)), fun h => ?_, fun h => ?_, fun h => ?_, ?_, ?_, ?_⟩, fun h => ?_⟩
  · obtain ⟨hne, hcalls⟩ := hmark (hspan ▸ h)
    exact ⟨hspan ▸ hne, hstation hcalls⟩
  · rw [hspan] at h ⊢
    exact hcandidate h
  · rw [hspan] at h ⊢
    exact hreceives h
  · rw [hsend, hsends, hmarks]
  · rw [hreturn, hreturns, hmarks]
  · rw [hspan, hstrap]
    exact hown
  · intro c hc
    rw [hspan] at hc ⊢
    exact h c hc

theorem settled_same (hs : RoundAgrees s) {t : State} (hspan : t.span = s.span) (hstrap : t.strap = s.strap) (hheld : t.held = s.held)
    (hstation : t.station = s.station) (hsend : t.sendQueue.countP (·.inFlight) = s.sendQueue.countP (·.inFlight))
    (hreturn : t.returns.countP (·.inFlight) = s.returns.countP (·.inFlight)) : Settled s t := by
  refine settled_of_span hs hspan hstrap hsend hreturn (fun h => ?_) (fun h => by rwa [hstation])
  rw [State.takesPart, hheld, hstation]
  exact h

/-- What an event of node memory or a fetch timer leaves of the round. -/
theorem memory_span (hp : p = .memory) (h : Chain p s e) : e.1.span = s.span := by
  refine h.preserves (Law := fun t => t.span = s.span) (fun t e' hact hlaw => Eq.trans ?_ hlaw) rfl
  cases hact with
  | span u hne => exact absurd hp hne
  | fault r => simp
  | slotLands t data => rw [quiet_fst, land_frame]
  | _ => rfl

/-- An apply fault leaves the queue, or flushes all but the in-flight entry (R54). -/
theorem applyFault_sendQueue (s : State) (x : InboundEntry) :
    (s.applyFault x).1.sendQueue = s.sendQueue ∨ (s.applyFault x).1.sendQueue = s.sendQueue.filter (·.inFlight) := by
  have hrecord : ∀ halted, (s.recordFault x halted).1.sendQueue = s.sendQueue := fun halted => by simp [State.recordFault]
  unfold State.applyFault
  split
  · split
    · exact .inl (hrecord true)
    · exact .inl (hrecord false)
  · split
    · exact .inl (hrecord false)
    · split
      · right
        rw [Effect.andThen_fst, State.enterContainment_frame, hrecord]
      · exact .inl (hrecord false)

theorem applyFault_marks (s : State) (x : InboundEntry) :
    (s.applyFault x).1.sendQueue.countP (·.inFlight) = s.sendQueue.countP (·.inFlight) ∧ (s.applyFault x).1.returns = s.returns := by
  refine ⟨?_, by rw [State.applyFault_frame]⟩
  rcases applyFault_sendQueue s x with h | h <;> rw [h]
  rw [List.countP_filter]
  simp

theorem engineGoesOn_queues (s : State) : s.engineGoesOn.1.sendQueue = s.sendQueue ∧ s.engineGoesOn.1.returns = s.returns := by
  unfold State.engineGoesOn
  split
  · exact ⟨rfl, rfl⟩
  · rw [(State.takeHead_frame _).1]
    exact ⟨rfl, rfl⟩

theorem postEnds_marks (s : State) (x : InboundEntry) (ending : AccessEnd) :
    (s.postEnds x ending).1.sendQueue.countP (·.inFlight) = s.sendQueue.countP (·.inFlight) ∧ (s.postEnds x ending).1.returns = s.returns := by
  cases ending with
  | ok =>
    obtain ⟨hsend, hreturn⟩ := engineGoesOn_queues s.dropHead
    exact ⟨congrArg _ hsend, hreturn⟩
  | error =>
    simp only [State.postEnds]
    split
    · exact applyFault_marks _ x
    · obtain ⟨hsend, hreturn⟩ := engineGoesOn_queues (s.applyFault x).1.dropHead
      obtain ⟨hsend', hreturn'⟩ := applyFault_marks s x
      exact ⟨(congrArg _ hsend).trans hsend', hreturn.trans hreturn'⟩

theorem fetchEnds_marks (s : State) (x : InboundEntry) (ending : ReadEnd) :
    (s.fetchEnds x ending).1.sendQueue = s.sendQueue ∧
      (s.fetchEnds x ending).1.returns.countP (·.inFlight) = s.returns.countP (·.inFlight) := by
  unfold State.fetchEnds
  split
  · rename_i length tag _
    obtain ⟨hsend, hreturn⟩ := engineGoesOn_queues (s.dropHead.joinReturn x.source tag (readResult length ending))
    rw [hsend, hreturn]
    rcases s.dropHead.joinReturn_cases x.source tag (readResult length ending) with ⟨-, h⟩ | ⟨-, -, h⟩ <;> rw [h]
    · exact ⟨rfl, rfl⟩
    · exact ⟨rfl, by simp [State.dropHead]⟩
  · obtain ⟨hsend, hreturn⟩ := engineGoesOn_queues s.dropHead
    exact ⟨hsend, congrArg _ hreturn⟩

/-- A station that takes part goes on to take part at an event of node memory: it stays, or is CONTAINED. -/
theorem settled_memory (hs : RoundAgrees s) (h : Chain .memory s e) (hsend : e.1.sendQueue.countP (·.inFlight) = s.sendQueue.countP (·.inFlight))
    (hreturn : e.1.returns.countP (·.inFlight) = s.returns.countP (·.inFlight)) : Settled s e.1 := by
  have hheld := chain_held h
  refine settled_of_span hs (memory_span rfl h) (chain_strap h) hsend hreturn (fun hpart => ?_) (fun hstation => ?_)
  · rw [State.takesPart, hheld]
    rcases chain_moves h with hsame | ⟨hcontained, -⟩ | ⟨hp, -⟩
    · rw [hsame]; exact hpart
    · rw [hcontained]
      simp only [State.takesPart, Bool.and_eq_true] at hpart
      simp [hpart.1]
    · cases hp
  · rcases chain_moves h with hsame | ⟨hcontained, -⟩ | ⟨hp, -⟩
    · rwa [hsame]
    · exact .inr hcontained
    · cases hp

theorem expireFetch_queues (s : State) (t : SlotNo) : (s.expireFetch t).1.sendQueue = s.sendQueue ∧ (s.expireFetch t).1.returns = s.returns := by
  unfold State.expireFetch
  split
  · exact ⟨rfl, rfl⟩
  split
  · exact ⟨rfl, rfl⟩
  split
  · exact ⟨rfl, rfl⟩
  · exact ⟨rfl, rfl⟩

/-! ## The parcel outcome -/

/-- What the station transmits in the round, and what it holds frozen, at the outcome (R7, R8). -/
theorem hears_spec {settle : Bool} {sent : Option ParcelWords} (hs : RoundAgrees s) (h : Hears s settle sent) :
    (sent = none → s.span.candidate = none) ∧
      ∀ w, sent = some w → (readHeader w.header0 w.header1).sender = s.strap.toNat := by
  obtain ⟨-, -, -, hreceives, -, -, hown⟩ := hs
  rcases h with ⟨picture, -, hphase, hsent⟩ | hphase
  · rw [hphase] at hreceives
    exact ⟨fun _ => hreceives rfl, fun w hw => by rw [hsent] at hw; cases hw⟩
  · rw [hphase] at hreceives hown
    cases sent with
    | none => exact ⟨fun _ => hreceives rfl, fun w hw => by cases hw⟩
    | some w =>
      refine ⟨fun hn => (by cases hn), fun w' hw => ?_⟩
      cases hw
      simpa [ownRound] using hown

theorem broadcastSent_queues (s : State) : s.broadcastSent.sendQueue = s.sendQueue ∧ s.broadcastSent.returns = s.returns := by
  rw [State.broadcastSent_frame]
  exact ⟨rfl, rfl⟩

/-- A broadcast that was sent leaves the candidates of the other sources (R9). -/
theorem broadcastSent_span (s : State) :
    s.broadcastSent.span = s.span ∧ (∀ c, s.span.candidate = some c → (c.source = .contain → isContain c.body = true) → addressed c.source = true) ∨
      (s.broadcastSent.span = { s.span with candidate := none } ∧ s.source? ≠ some .sendQueue ∧ s.source? ≠ some .returnList) := by
  unfold State.broadcastSent
  split
  · rename_i h
    exact .inr ⟨rfl, by simp [State.source?, h], by simp [State.source?, h]⟩
  · rename_i h
    exact .inr ⟨rfl, by simp [State.source?, h], by simp [State.source?, h]⟩
  · rename_i hhello hcontain
    refine .inl ⟨rfl, fun c hc hbody => ?_⟩
    obtain ⟨source, dest, body⟩ := c
    cases source with
    | hello => exact absurd hc (hhello dest body)
    | contain =>
      cases body with
      | contain mode cause named addr length => exact absurd hc (hcontain dest mode cause named addr length)
      | _ => exact absurd (hbody rfl) (by simp [isContain])
    | returnList => rfl
    | sendQueue => rfl

theorem broadcastSent_marks (s : State) :
    marks .sendQueue s.broadcastSent = marks .sendQueue s ∧ marks .returnList s.broadcastSent = marks .returnList s := by
  rcases broadcastSent_span s with ⟨h, -⟩ | ⟨h, hsend, hreturn⟩
  · simp [marks, State.source?, h]
  · rw [marks_eq_zero hsend, marks_eq_zero hreturn]
    simp [marks, State.source?, h]

/-- A round that no answer window follows ends with nothing in flight. -/
theorem afterParcel_ended (hm : Marked s) (ask : Option (Station × Body)) : Ended (s.afterParcel false ask).1 :=
  (ended_endRound (releaseCandidate_noMarks hm)).countRound

/-- A garbled round ends with nothing in flight (R8, R11). -/
theorem garbledRound_ended (collision : Bool) (hs : RoundAgrees s) (hpart : s.takesPart = true) : Ended (s.garbledRound collision).1 := by
  have hm : Marked s.voidRound.1 := marked_of_round hs
  have hreleased := releaseCandidate_noMarks hm
  unfold State.garbledRound
  rw [Effect.andThen_fst, Effect.andThen_fst, Effect.andThen_fst, quiet_fst]
  refine ended_endRound ?_
  split
  · have hchain : Chain .outcome s.voidRound.1.releaseCandidate.1 s.voidRound.1.releaseCandidate.1.collide :=
      collide_chain rfl ((releaseCandidate_takesPart _).trans hpart)
    exact chain_noMarks hchain hreleased
  · exact hreleased

/-- A round that goes on to its answer window, with what is frozen then (R10, R11). -/
theorem settled_answer {t : State} {ask : Option (Station × Body)} {driven : Option AnswerCode} (hphase : t.span.phase = .answer ask driven)
    (hpart : t.takesPart = true) (hmark : t.span.callMark = true → t.station = .active ∨ t.station = .contained)
    (hcandidate : t.span.candidate.isSome = true → t.span.callMark = true) (hreceives : ask.isSome = true ∨ driven.isSome = true → t.span.candidate = none)
    (hsend : t.sendQueue.countP (·.inFlight) = marks .sendQueue t) (hreturn : t.returns.countP (·.inFlight) = marks .returnList t)
    (hform : CandidateAgrees s → ∀ c, t.span.candidate = some c → addressed c.source = true) : Settled s t := by
  refine ⟨⟨fun _ => hpart, fun h => ⟨by simp [hphase], hmark h⟩, hcandidate, fun h => hreceives ?_, hsend, hreturn, by rw [hphase]; rfl⟩,
    fun h c hc => ?_⟩
  · rw [hphase] at h
    simpa [receives] using h
  · have haddressed := hform h c hc
    refine ⟨fun hsource => ?_, fun _ => haddressed⟩
    rw [hsource] at haddressed
    cases haddressed

/-- The station's own number in a parcel it did not send: it leaves the round, or the round goes on without it (R20). -/
theorem duplicate_settled (hs : RoundAgrees s) (hpart : s.takesPart = true) (hnone : s.span.candidate = none) (answered : Bool) :
    Settled s (s.goodRound.duplicate.andThen fun s' => if s'.station = .offline then quiet s' else s'.afterParcel answered none).1 := by
  have hno : NoMarks s := noMarks_of_candidate_none (marked_of_round hs) hnone
  obtain ⟨-, hmark, -⟩ := hs
  rw [Effect.andThen_fst]
  by_cases hcontained : s.station = .contained
  · have hstate : s.goodRound.duplicate.1 = { s.goodRound with span := { s.goodRound.span with callBar := true } } := by
      rw [State.duplicate, if_pos (show s.goodRound.station = .contained from hcontained)]
    have hmarked : Marked s.goodRound.duplicate.1 := by
      rw [hstate]
      exact ⟨hno.1.le.trans (Nat.zero_le _), hno.2.le.trans (Nat.zero_le _)⟩
    rw [if_neg (by rw [hstate]; simp [State.goodRound, hcontained])]
    cases answered with
    | false => exact (afterParcel_ended hmarked none).settled
    | true =>
      rw [State.afterParcel, if_pos rfl, quiet_fst, hstate]
      have hzero : ∀ source, marks source ({ s.goodRound with span := { s.goodRound.span with callBar := true } }.withPhase (.answer none none)) = 0 :=
        fun source => marks_eq_zero (by simp [State.source?, State.withPhase, State.goodRound, hnone])
      refine settled_answer (ask := none) (driven := none) rfl hpart (fun _ => .inr hcontained) (fun h => ?_) (fun _ => hnone)
        (hno.1.trans (hzero _).symm) (hno.2.trans (hzero _).symm) (fun _ c hc => ?_)
      · change s.span.candidate.isSome = true at h
        rw [hnone] at h
        cases h
      · change s.span.candidate = some c at hc
        rw [hnone] at hc
        cases hc
  · have hstate : s.goodRound.duplicate.1 = s.goodRound.goOffline := by
      rw [State.duplicate, if_neg (show ¬ s.goodRound.station = .contained from hcontained)]
    rw [hstate, if_pos (show s.goodRound.goOffline.station = .offline from rfl), quiet_fst]
    exact Ended.settled ⟨rfl, rfl, rfl, countP_released (fun _ => rfl) _, countP_returns_released _⟩

/-- The state from which a good parcel that is adopted and consumed goes on. -/
def consumed (s : State) (r : TurnRecord) (d : Station) (room : Bool) (body : Option Body) : State :=
  (State.consume { s.goodRound with turn := r } d room body).1.broadcastSent

theorem consumed_marked (hs : RoundAgrees s) (r : TurnRecord) (d : Station) (room : Bool) (body : Option Body) : Marked (consumed s r d room body) := by
  obtain ⟨hsend, hreturn⟩ := marked_of_round hs
  have hchain : Chain .outcome { s.goodRound with turn := r } (State.consume { s.goodRound with turn := r } d room body) := consume_chain d room body rfl
  obtain ⟨hsend', hreturn'⟩ := chain_marks hchain
  have hsource : ∀ source, marks source (State.consume { s.goodRound with turn := r } d room body).1 = marks source s := fun source => by
    simp only [marks, State.source?, consume_span]
    rfl
  obtain ⟨hmarks, hmarks'⟩ := broadcastSent_marks (State.consume { s.goodRound with turn := r } d room body).1
  obtain ⟨hq, hr⟩ := broadcastSent_queues (State.consume { s.goodRound with turn := r } d room body).1
  unfold Marked consumed
  rw [hmarks, hmarks', hsource, hsource, hq, hr]
  exact ⟨hsend'.trans hsend, hreturn'.trans hreturn⟩

/-- A parcel that is answered is heard, and its sender's candidate stays frozen (R10, R11). -/
theorem consumed_settled (hs : RoundAgrees s) (hpart : s.takesPart = true) (r : TurnRecord) (d : Station) (room : Bool) {body : Option Body}
    (hplain : Claims.plain body = true) {ask : Option (Station × Body)} (hask : ask.isSome = true → s.span.candidate = none) :
    Settled s ((consumed s r d room body).withPhase (.answer ask none)) := by
  obtain ⟨-, hmark, hcandidate, -, hsend, hreturn, -⟩ := hs
  have hstate : consumed s r d room body = (State.hear { s.goodRound with turn := r } d room).broadcastSent := by
    rw [consumed, consume_plain hplain, quiet_fst]
  generalize hheard : State.hear { s.goodRound with turn := r } d room = t at hstate
  have htspan : t.span = s.goodRound.span := by rw [← hheard]; rfl
  have htqueue : t.sendQueue = s.sendQueue := by rw [← hheard]; rfl
  have htreturns : t.returns = s.returns := by rw [← hheard]; rfl
  have htstation : t.station = s.station := by rw [← hheard]; rfl
  have htpart : t.takesPart = s.takesPart := by rw [← hheard]; rfl
  obtain ⟨hq, hr⟩ := broadcastSent_queues t
  obtain ⟨hm, hm'⟩ := broadcastSent_marks t
  have hframe : t.broadcastSent.station = t.station ∧ t.broadcastSent.takesPart = t.takesPart := by
    rw [State.broadcastSent_frame]
    exact ⟨rfl, rfl⟩
  have hsource : ∀ source, marks source t = marks source s := fun source => by
    simp only [marks, State.source?, htspan]
    rfl
  rw [hstate]
  refine settled_answer (ask := ask) (driven := none) rfl ?_ ?_ ?_ ?_ ?_ ?_ ?_
  · exact hframe.2.trans (htpart.trans hpart)
  · intro h
    have hcall : s.span.callMark = true := by
      rcases broadcastSent_span t with ⟨h', -⟩ | ⟨h', -⟩ <;>
      · change t.broadcastSent.span.callMark = true at h
        rw [h', htspan] at h
        exact h
    change t.broadcastSent.station = _ ∨ t.broadcastSent.station = _
    rw [hframe.1, htstation]
    exact (hmark hcall).2
  · intro h
    change t.broadcastSent.span.candidate.isSome = true at h
    change t.broadcastSent.span.callMark = true
    rcases broadcastSent_span t with ⟨h', -⟩ | ⟨h', -⟩ <;> rw [h'] at h ⊢
    · rw [htspan] at h ⊢
      exact hcandidate h
    · cases h
  · intro h
    change t.broadcastSent.span.candidate = none
    rcases broadcastSent_span t with ⟨h', -⟩ | ⟨h', -⟩ <;> rw [h']
    rw [htspan]
    exact hask (h.resolve_right (by simp))
  · change t.broadcastSent.sendQueue.countP _ = marks .sendQueue t.broadcastSent
    rw [hq, hm, htqueue, hsource]
    exact hsend
  · change t.broadcastSent.returns.countP _ = marks .returnList t.broadcastSent
    rw [hr, hm', htreturns, hsource]
    exact hreturn
  · intro hform c hc
    change t.broadcastSent.span.candidate = some c at hc
    rcases broadcastSent_span t with ⟨h', hbody⟩ | ⟨h', -⟩ <;> rw [h'] at hc
    · refine hbody c hc ?_
      rw [htspan] at hc
      exact (hform c hc).1
    · cases hc

theorem goodParcel_settled (hs : RoundAgrees s) (hpart : s.takesPart = true) {own : Bool} {w : ParcelWords}
    (hown : own = false → s.span.candidate = none) : Settled s (s.goodParcel own w).1 := by
  have hmarked : Marked s.goodRound := marked_of_round hs
  unfold State.goodParcel
  dsimp only
  split
  · split
    · rename_i hdup
      exact duplicate_settled hs hpart (hown (by simpa using (Bool.and_eq_true_iff.mp hdup).2)) _
    · rename_i sender stamp _ _ _
      rw [Effect.andThen_fst]
      change Settled s ((consumed s _ sender _ _).afterParcel _ _).1
      cases hanswered : (readHeader w.header0 w.header1).answered with
      | false => exact (afterParcel_ended (consumed_marked hs _ _ _ _) _).settled
      | true =>
        have haddressed : addressedKind (readHeader w.header0 w.header1).kind = true := by
          simp only [Header.answered, Bool.and_eq_true] at hanswered
          exact hanswered.1.1
        rw [State.afterParcel, if_pos rfl, quiet_fst]
        refine consumed_settled hs hpart _ _ _ (plain_of_addressed haddressed _) fun hask => hown ?_
        unfold State.askFor at hask
        split at hask
        · rename_i h
          simp only [Bool.and_eq_true, Bool.not_eq_true'] at h
          exact h.1
        · cases hask
  · exact (afterParcel_ended hmarked none).settled

theorem parcelOutcome_settled (hs : RoundAgrees s) (hpart : s.takesPart = true) {settle : Bool} {sent : Option ParcelWords} (report : LineReport)
    (h : Hears s settle sent) : Settled s (s.parcelOutcome settle sent report).1 := by
  cases report with
  | empty => exact (garbledRound_ended _ hs hpart).settled
  | garbled => exact (garbledRound_ended _ hs hpart).settled
  | intact h0 h1 body =>
    refine goodParcel_settled hs hpart fun hnone => (hears_spec hs h).1 ?_
    cases sent with
    | none => rfl
    | some w => cases hnone

/-! ## The other events of the round -/

/-- A mark while no round is in progress freezes what the selector offers, and marks it alone (R3). -/
theorem freeze_settled (hs : RoundAgrees s) (hpart : s.takesPart = true) (hphase : s.span.phase = .none) : Settled s (s.freeze s.offer) := by
  obtain ⟨-, hmark, -, hreceives, hsend, hreturn, -⟩ := id hs
  have hnone : s.span.candidate = none := hreceives (by rw [hphase]; rfl)
  have hcall : s.span.callMark = false := by
    cases h : s.span.callMark with
    | false => rfl
    | true => exact absurd hphase (hmark h).1
  obtain ⟨hsend, hreturn⟩ := noMarks_of_candidate_none (marked_of_round hs) hnone
  have h := freeze_offer s
  generalize s.freeze s.offer = t at h ⊢
  have hcalls : ∀ {t : State} (c : Candidate), t.takesPart = true → (t.station = .active ∨ t.station = .contained) →
      (c.source = .contain → isContain c.body = true) → t.sendQueue.countP (·.inFlight) = (if c.source = .sendQueue then 1 else 0) →
      t.returns.countP (·.inFlight) = (if c.source = .returnList then 1 else 0) → Settled s (t.call c) := by
    intro t c ht hstation hform hq hr
    refine ⟨⟨fun _ => ht, fun _ => ⟨by simp [State.call], hstation⟩, fun _ => rfl, fun h => (by cases h), ?_, ?_, rfl⟩, fun _ c' hc => ?_⟩
    · simpa [marks, State.source?, State.call] using hq
    · simpa [marks, State.source?, State.call] using hr
    · cases hc
      exact ⟨hform, fun h => by cases h⟩
  cases h with
  | nothing =>
    refine ⟨⟨fun _ => hpart, fun h => ?_, fun h => ?_, fun _ => hnone, ?_, ?_, rfl⟩, fun _ => candidateAgrees_of_none hnone⟩
    · rw [show s.listen.span.callMark = s.span.callMark from rfl, hcall] at h; cases h
    · rw [show s.listen.span.candidate = s.span.candidate from rfl, hnone] at h; cases h
    · exact hsend.trans (marks_eq_zero (by simp [State.source?, State.listen, State.withPhase, hnone])).symm
    · exact hreturn.trans (marks_eq_zero (by simp [State.source?, State.listen, State.withPhase, hnone])).symm
  | contain pending hstation => exact hcalls _ hpart hstation (fun _ => rfl) hsend hreturn
  | hello hactive => exact hcalls _ hpart (.inl hactive) (by simp) hsend hreturn
  | ret older younger r hstation hsplit =>
    refine hcalls (t := { s with returns := older ++ { r with inFlight := true } :: younger }) _ hpart hstation (by simp) hsend ?_
    rw [hsplit, List.countP_append, List.countP_cons] at hreturn
    change (older ++ { r with inFlight := true } :: younger).countP _ = 1
    rw [List.countP_append, List.countP_cons, if_pos rfl]
    omega
  | entry older younger x hactive hsplit =>
    refine hcalls (t := { s with sendQueue := older ++ x.freeze s.freeSlot? :: younger }) _ hpart (.inl hactive) (by simp) ?_ hreturn
    rw [hsplit, List.countP_append, List.countP_cons] at hsend
    change (older ++ x.freeze s.freeSlot? :: younger).countP _ = 1
    rw [List.countP_append, List.countP_cons, if_pos (SendEntry.freeze_inFlight x _)]
    omega

/-- The owner of a round has a caller in the picture it reads: itself (R6, R26). -/
theorem picture_of_owner {picture : StationSet} (h : s.ownsRound picture = true) : s.span.callMark = true ∧ picture ≠ 0 := by
  simp only [State.ownsRound, Bool.and_eq_true] at h
  obtain ⟨⟨hmark, hsome⟩, -⟩ := h
  obtain ⟨o, ho⟩ := Option.isSome_iff_exists.mp hsome
  refine ⟨hmark, fun hzero => ?_⟩
  have := TurnOrder.has_of_grant_eq_some ho
  rw [hzero] at this
  exact TurnOrder.not_has_zero o this

/-- A state in another phase of the round, with the same candidate (R6, R7, R12). -/
theorem settled_withPhase {phase : Phase} (hs : RoundAgrees s) (hpart : s.takesPart = true) (hne : phase ≠ .none)
    (hreceives : receives phase = true → s.span.candidate = none) (hown : ownRound s.strap phase = true)
    (hform : CandidateAgrees s → inAnswer phase = true → ∀ c, s.span.candidate = some c → addressed c.source = true) :
    Settled s (s.withPhase phase) := by
  obtain ⟨-, hmark, hcandidate, -, hsend, hreturn, -⟩ := hs
  exact ⟨⟨fun _ => hpart, fun h => ⟨hne, (hmark h).2⟩, hcandidate, hreceives, hsend, hreturn, hown⟩,
    fun h c hc => ⟨(h c hc).1, fun hphase => hform h hphase c hc⟩⟩

theorem settled_yields (hs : RoundAgrees s) (hpart : s.takesPart = true) (picture : StationSet) :
    Settled s (s.withPhase (.closed picture false s.turn.settle)).releaseCandidate.1 := by
  obtain ⟨hsend, hreturn⟩ := releaseCandidate_noMarks (s := s.withPhase (.closed picture false s.turn.settle)) (show Marked s from marked_of_round hs)
  have hspan := releaseCandidate_span (s.withPhase (.closed picture false s.turn.settle))
  have hframe := (State.releaseCandidate_frame (s.withPhase (.closed picture false s.turn.settle))).1
  have hpart' := releaseCandidate_takesPart (s.withPhase (.closed picture false s.turn.settle))
  have hstation : (s.withPhase (.closed picture false s.turn.settle)).releaseCandidate.1.station = s.station := by
    rw [hframe]
    rfl
  generalize (s.withPhase (.closed picture false s.turn.settle)).releaseCandidate.1 = t at hsend hreturn hspan hpart' hstation ⊢
  have hcandidate : t.span.candidate = none := by rw [hspan]
  refine ⟨⟨fun _ => hpart'.trans hpart, fun h => ?_, fun h => ?_, fun _ => hcandidate, ?_, ?_, by rw [hspan]; rfl⟩,
    fun _ => candidateAgrees_of_none hcandidate⟩
  · rw [hspan] at h ⊢
    rw [hstation]
    exact ⟨by simp [State.withPhase], (hs.2.1 h).2⟩
  · rw [hcandidate] at h; cases h
  · exact hsend.trans (marks_eq_zero (by simp [State.source?, hcandidate])).symm
  · exact hreturn.trans (marks_eq_zero (by simp [State.source?, hcandidate])).symm

/-- The words this station transmits carry its own number (R7). -/
theorem transmission_sender (s : State) (c : Candidate) :
    (readHeader (s.transmission c).header0 (s.transmission c).header1).sender = s.strap.toNat := by
  have hkind : c.body.kindCode < 16 := by cases c.body <;> simp [Body.kindCode]
  exact congrArg Header.sender (Words.readHeader_headerWords hkind s.strap.isLt c.dest.isLt (s.turn.stamp.hp.isLt.trans (by decide))
    (s.turn.stamp.lp.isLt.trans (by decide)))

/-- A station that is asked for an answer has no candidate (R10). -/
theorem candidate_of_asked (hs : RoundAgrees s) {asked : Station × Body} {driven : Option AnswerCode}
    (hphase : s.span.phase = .answer (some asked) driven) : s.span.candidate = none := hs.2.2.2.1 (by rw [hphase]; rfl)

theorem settled_answers (hs : RoundAgrees s) (hpart : s.takesPart = true) {asked : Station × Body} {driven driven' : Option AnswerCode}
    (hphase : s.span.phase = .answer (some asked) driven) : Settled s (s.withPhase (.answer none driven')) := by
  have hnone := candidate_of_asked hs hphase
  exact settled_withPhase hs hpart (by simp) (fun _ => hnone) rfl fun _ _ c hc => by rw [hnone] at hc; cases hc

/-- The fields of which the law of the round speaks. -/
theorem settled_congr {t u : State} (h : Settled s t) (hspan : u.span = t.span) (hstrap : u.strap = t.strap) (hheld : u.held = t.held)
    (hstation : u.station = t.station) (hsend : u.sendQueue = t.sendQueue) (hreturn : u.returns = t.returns) : Settled s u := by
  obtain ⟨hround, hcandidate⟩ := settled_same h.1 hspan hstrap hheld hstation (congrArg _ hsend) (congrArg _ hreturn)
  exact ⟨hround, hcandidate ∘ h.2⟩

/-! ## Every command -/

theorem settled_of_reset {t : State} (hspan : t.span = .reset) (hsend : t.sendQueue = []) (hreturn : t.returns = []) : Settled s t :=
  Ended.settled ⟨by rw [hspan]; rfl, by rw [hspan]; rfl, by rw [hspan]; rfl, by simp [hsend], by simp [hreturn]⟩

theorem happens_settled {c : Instr} {t : State} (h : Happens s c t) (hs : RoundAgrees s) : Settled s t := by
  have hself : Settled s s := ⟨hs, id⟩
  cases h with
  | asserts => exact Ended.settled ⟨rfl, rfl, rfl, countP_released (fun _ => rfl) _, countP_returns_released _⟩
  | releases => exact settled_of_reset rfl rfl rfl
  | restarts => exact settled_of_reset rfl rfl rfl
  | marks hpart hphase => exact freeze_settled hs hpart hphase
  | owns picture hpart hphase howns =>
    obtain ⟨-, hpicture⟩ := picture_of_owner howns
    exact settled_withPhase hs hpart (by simp) (fun h => by cases h) (by simpa [ownRound] using hpicture) fun _ h => by cases h
  | yields picture hpart => exact (settled_yields hs hpart picture).done
  | opens picture owned settle hpart hphase =>
    refine settled_withPhase hs hpart (by simp) (fun h => ?_) ?_ fun _ h => by cases h
    · cases owned with
      | false => exact hs.2.2.2.1 (by rw [hphase]; rfl)
      | true =>
        cases hc : s.span.candidate with
        | none => rfl
        | some c => simp [receives, hc] at h
    · cases owned with
      | false => rfl
      | true =>
        cases s.span.candidate with
        | none => rfl
        | some c => exact beq_iff_eq.mpr (transmission_sender s c)
  | idles owned settle hpart hphase =>
    have hreceives : owned = false := by
      have := hs.2.2.2.2.2.2
      rw [hphase] at this
      simpa [ownRound] using this
    have hnone : s.span.candidate = none := hs.2.2.2.1 (by rw [hphase, hreceives]; rfl)
    exact (ended_endRound (noMarks_of_candidate_none (marked_of_round hs) hnone)).countRound.settled
  | outcome settle sent report _ hpart hhears => exact (parcelOutcome_settled hs hpart report hhears).done
  | silent asked driven hpart hphase => exact settled_answers hs hpart hphase
  | declines asked driven code hpart hphase => exact settled_answers hs hpart hphase
  | takesReturn asked driven k result hpart hphase =>
    exact settled_congr (settled_answers hs hpart hphase (driven' := some .taken)) rfl rfl rfl rfl rfl rfl
  | takesEntry asked driven x hpart hphase =>
    exact settled_congr (settled_answers hs hpart hphase (driven' := some .taken)) rfl rfl rfl rfl rfl rfl
  | closes ask driven o hpart =>
    have hno := settleCandidate_noMarks o hs.2.2.2.2.1 hs.2.2.2.2.2.1
    have hchain : Chain .close (s.settleCandidate o).1 ((s.settleCandidate o).1.settleHolder (o == .good .taken)) := settleHolder_chain _
    have hended : Ended (closing s o).1 := (ended_endRound (chain_noMarks hchain hno)).countRound
    exact hended.done.settled
  | expires t =>
    obtain ⟨hsend, hreturn⟩ := expireFetch_queues s t
    exact (settled_memory hs (expires_chain s t) (congrArg _ hsend) (congrArg _ hreturn)).done
  | writes x rest a ending _ hstate =>
    obtain ⟨hsend, hreturn⟩ := postEnds_marks s.pathFallsFree x ending
    have hpath : s.pathFallsFree.sendQueue = s.sendQueue ∧ s.pathFallsFree.returns = s.returns := by
      rw [State.pathFallsFree_frame]; exact ⟨rfl, rfl⟩
    exact (settled_memory hs (writes_chain x ending hstate) (hsend.trans (congrArg _ hpath.1)) (congrArg _ (hreturn.trans hpath.2))).done
  | reads x rest a ending _ hstate =>
    obtain ⟨hsend, hreturn⟩ := fetchEnds_marks s.pathFallsFree x ending
    have hpath : s.pathFallsFree.sendQueue = s.sendQueue ∧ s.pathFallsFree.returns = s.returns := by
      rw [State.pathFallsFree_frame]; exact ⟨rfl, rfl⟩
    exact (settled_memory hs (reads_chain x ending hstate) (congrArg _ (hsend.trans hpath.1)) (hreturn.trans (congrArg _ hpath.2))).done
  | lands t a status => rw [State.pathFallsFree_frame]; exact hself
  | frees => rw [State.pathFallsFree_frame]; exact hself
  | queues k d port =>
    have hcount : (s.sendQueue ++ [s.port.entry k d]).countP (·.inFlight) = s.sendQueue.countP (·.inFlight) := by simp [NodePort.entry]
    exact settled_same hs rfl rfl rfl rfl hcount rfl
  | joins config _ _ hunstarted =>
    have hno : s.takesPart = false := by simp [State.takesPart, hunstarted]
    have hstation : ¬ (s.station = .active ∨ s.station = .contained) := by simp [hunstarted]
    exact settled_of_span hs rfl rfl rfl rfl (fun h => by rw [hno] at h; cases h) fun h => absurd h hstation
  | masks mask =>
    have hmasked : Settled s (s.applyMask mask).1 := by
      rw [State.applyMask]
      exact hself
    exact hmasked.done.port
  | pops record rest => cases record <;> exact settled_congr hself rfl rfl rfl rfl rfl rfl
  | _ => exact hself

/-- Settles O15: each event ends the round with nothing in flight, goes on to the next phase with the candidate, or leaves the round alone. -/
theorem roundKept : Obligations.RoundKept := by
  intro s t hs hstep
  rcases step_happens hstep with rfl | ⟨c, rest, h⟩
  · exact ⟨hs, id⟩
  · exact happens_settled (s := { s with pending := rest }) h hs

end Sys2Proof.RoundLaw
end

section
/-! Something is held for an answer only while this station drives TAKEN, one at a time (R77, R94, R97, R98): no act adds to what is held, an
answer window adds one where nothing is held, and the answer close settles it. -/

namespace Sys2Proof.Holding

open Sys2Proof.Machine Sys2Proof.Safety Sys2Proof.Events Sys2Proof.Acts Sys2Proof.Selector Sys2Proof.Ranges Sys2Proof.FetchTable
  Sys2Proof.Controller Sys2Proof.Rounds

variable {p : Part} {s t : State} {e : Effect}

/-! ## What is held -/

/-- The number of HOLDING slots. -/
def holdings (s : State) : Nat := s.slots.toList.countP fun f => f.state == .holding

/-- The number of provisional entries. -/
def provisionals (s : State) : Nat := s.inbound.countP (·.provisional)

/-- The HOLDING slots of `t` are HOLDING in `s`, with the same result. -/
def HoldsOnly (s t : State) : Prop :=
  ∀ i, (t.slot i).state = .holding → (s.slot i).state = .holding ∧ (t.slot i).held = (s.slot i).held

theorem holdings_eq (s : State) : holdings s = (List.finRange 8).countP fun t => (s.slot t).state == .holding := by
  have hlist : s.slots.toList = (List.finRange 8).map s.slot := by
    apply List.ext_getElem
    · simp
    · intro i h1 h2
      simp [State.slot]
  rw [holdings, hlist, List.countP_map]
  rfl

theorem holdings_le (h : HoldsOnly s t) : holdings t ≤ holdings s := by
  rw [holdings_eq, holdings_eq]
  exact List.countP_mono_left fun i _ hi => by simpa using (h i (by simpa using hi)).1

/-- A HOLDING slot that becomes another leaves one less. -/
theorem holdings_lt {k : SlotNo} (hk : (s.slot k).state = .holding) (hk' : (t.slot k).state ≠ .holding) (h : HoldsOnly s t) :
    holdings t < holdings s := by
  have hsub : holdings t = ((List.finRange 8).filter fun i => (s.slot i).state == .holding).countP fun i => (t.slot i).state == .holding := by
    rw [holdings_eq, List.countP_filter]
    refine List.countP_congr fun i _ => ?_
    simp only [Bool.and_eq_true, beq_iff_eq]
    exact ⟨fun hi => ⟨hi, (h i hi).1⟩, fun hi => hi.1⟩
  rw [hsub, holdings_eq, List.countP_eq_length_filter (l := List.finRange 8), List.countP_lt_length_iff]
  exact ⟨k, List.mem_filter.mpr ⟨List.mem_finRange k, by simpa using hk⟩, by simpa using hk'⟩

theorem holdsOnly_refl (s : State) : HoldsOnly s s := fun _ hi => ⟨hi, rfl⟩

theorem holdsOnly_setSlot {k : SlotNo} {f : FetchSlot} (hf : f.state = .holding → (s.slot k).state = .holding ∧ f.held = (s.slot k).held) :
    HoldsOnly s (s.setSlot k f) := by
  intro i hi
  rw [State.slot_setSlot] at hi ⊢
  split at hi
  · subst_vars
    rw [if_pos rfl]
    exact hf hi
  · rename_i hne
    rw [if_neg hne]
    exact ⟨hi, rfl⟩

/-- A slot that lands leaves the others. -/
theorem holdsOnly_land (k : SlotNo) (data : List Word) : HoldsOnly s (s.land k data) := by
  have hset : HoldsOnly s (s.setSlot k { s.slot k with state := .landing, timer := .stopped, deferred := false }) :=
    holdsOnly_setSlot fun h => by cases h
  rcases State.askLanding_cases (s.setSlot k { s.slot k with state := .landing, timer := .stopped, deferred := false }) k
    (.write (s.slot k).landing data) with ⟨-, h⟩ | ⟨-, h⟩ <;>
  · rw [State.land, h]
    exact hset

/-! ## The acts -/

theorem act_holdsOnly (h : Act p s e) : HoldsOnly s e.1 := by
  cases h with
  | fetches x addr length landing k hx hop => exact holdsOnly_setSlot (s := s.removeInFlight) fun h => by simp at h
  | slotsFail which status =>
    intro i hi
    rw [State.failAwaiting_slot] at hi ⊢
    split at hi
    · cases hi
    · rename_i hstays
      rw [if_neg hstays]
      exact ⟨hi, rfl⟩
  | slotEnds k status hstate => exact holdsOnly_setSlot (f := freeSlot) fun h => by cases h
  | slotKept k f hstate hf =>
    refine holdsOnly_setSlot fun hholding => ?_
    rcases hf with h | ⟨-, h⟩
    · rw [hholding] at h; cases h
    · exact ⟨hstate, h⟩
  | slotLands k data hstate => exact holdsOnly_land k data
  | fault r => rcases s.addFault_cases r with ⟨-, h⟩ | ⟨-, h⟩ <;> rw [quiet_fst, h] <;> exact holdsOnly_refl s
  | _ => exact holdsOnly_refl s

/-- No act makes an entry provisional, and only the last entry may be. -/
theorem act_provisionals (h : Act p s e) : provisionals e.1 ≤ provisionals s ∧
    ((∀ x ∈ s.inbound.dropLast, x.provisional = false) → ∀ x ∈ e.1.inbound.dropLast, x.provisional = false) := by
  cases h with
  | inbound q hlength hcount hlast => exact ⟨hcount, hlast⟩
  | slotLands k data hstate =>
    rw [quiet_fst, land_frame]
    exact ⟨le_rfl, id⟩
  | fault r => rcases s.addFault_cases r with ⟨-, h⟩ | ⟨-, h⟩ <;> rw [quiet_fst, h] <;> exact ⟨le_rfl, id⟩
  | _ => exact ⟨le_rfl, id⟩

/-- Every HOLDING slot has its result, and only the last inbound entry may be provisional; `n` things are held at most. -/
def Holds (n : Nat) (s : State) : Prop :=
  (∀ i, (s.slot i).state = .holding → (s.slot i).held.isSome = true) ∧ (∀ x ∈ s.inbound.dropLast, x.provisional = false) ∧
    provisionals s + holdings s ≤ n

theorem Holds.mono {m n : Nat} (h : Holds m s) (hle : m ≤ n) : Holds n s := ⟨h.1, h.2.1, h.2.2.trans hle⟩

theorem result_of_holdsOnly (h : HoldsOnly s t) (hs : ∀ i, (s.slot i).state = .holding → (s.slot i).held.isSome = true) :
    ∀ i, (t.slot i).state = .holding → (t.slot i).held.isSome = true := fun i hi => by
  obtain ⟨hold, hheld⟩ := h i hi
  exact hheld ▸ hs i hold

theorem holds_act {n : Nat} (h : Act p s e) (hs : Holds n s) : Holds n e.1 := by
  obtain ⟨hresult, hlast, hcount⟩ := hs
  obtain ⟨hle, hlast'⟩ := act_provisionals h
  exact ⟨result_of_holdsOnly (act_holdsOnly h) hresult, hlast' hlast, (Nat.add_le_add hle (holdings_le (act_holdsOnly h))).trans hcount⟩

theorem holds_chain {n : Nat} (h : Chain p s e) (hs : Holds n s) : Holds n e.1 := h.preserves (fun _ _ => holds_act) hs

theorem holds_counted {n : Nat} (h : Counted p s e) (hs : Holds n s) : Holds n e.1 := by
  rcases h with h | ⟨e', h, rfl⟩
  · exact holds_chain h hs
  · have hchain := holds_chain h hs
    rw [countRound_frame]
    exact hchain

theorem chain_counts (h : Chain p s e) : provisionals e.1 ≤ provisionals s ∧ holdings e.1 ≤ holdings s :=
  h.preserves (Law := fun t => provisionals t ≤ provisionals s ∧ holdings t ≤ holdings s)
    (fun _ _ hact hlaw => ⟨(act_provisionals hact).1.trans hlaw.1, (holdings_le (act_holdsOnly hact)).trans hlaw.2⟩) ⟨le_rfl, le_rfl⟩

/-! ## The answer close -/

/-- The provisional entry is committed or discarded (R98). -/
theorem provisionals_settleProvisional (taken : Bool) : provisionals (s.settleProvisional taken) = 0 := by
  cases taken <;> simp [provisionals, State.settleProvisional]

/-- The HOLDING slot is decided, and is HOLDING no longer (R81, R82, R89). -/
theorem holdings_decideSlot {k : SlotNo} (taken : Bool) (hk : (s.slot k).state = .holding) :
    holdings (s.decideSlot k taken).1 < holdings s := by
  have hset : ∀ f : FetchSlot, f.state ≠ .holding → holdings (s.setSlot k f) < holdings s := fun f hf =>
    holdings_lt hk (by rwa [State.slot_setSlot, if_pos rfl]) (holdsOnly_setSlot fun h => absurd h hf)
  have hends : ∀ status, holdings (s.endFetch k status).1 < holdings s := fun status => hset freeSlot (by simp [freeSlot])
  unfold State.decideSlot
  split
  · exact hends _
  split
  · split
    · exact holdings_lt hk (by rw [quiet_fst, land_slot, if_pos rfl]; simp) (holdsOnly_land k _)
    · exact hends _
  split
  · exact hends _
  · exact hset _ (by simp)

/-- What is held for an answer is settled at its answer close. -/
theorem counts_settleHolder (taken : Bool) (hs : provisionals s + holdings s ≤ 1) :
    provisionals (s.settleHolder taken).1 + holdings (s.settleHolder taken).1 = 0 := by
  have hwake : Chain .close (s.settleProvisional taken) (s.settleProvisional taken).wakeEngine := wakeEngine_chain
  have hslots : holdings (s.settleProvisional taken) = holdings s := rfl
  obtain ⟨hnone, hle⟩ := chain_counts hwake
  rw [provisionals_settleProvisional] at hnone
  rw [State.settleHolder, Effect.andThen_fst]
  generalize (s.settleProvisional taken).wakeEngine.1 = t at hnone hle ⊢
  split
  · rename_i k hk
    have hholding : (t.slot k).state = .holding := by simpa using List.find?_some hk
    have hless := holdings_decideSlot taken hholding
    have hdecide : Chain .close t (t.decideSlot k taken) := decideSlot_chain k taken hholding
    have hnone' := (chain_counts hdecide).1
    omega
  · rename_i hnone'
    have hzero : holdings t = 0 := by
      rw [holdings_eq, List.countP_eq_zero]
      exact fun i hi => List.find?_eq_none.mp hnone' i hi
    rw [quiet_fst]
    omega

/-- The state an answer close leaves (R14). -/
theorem closing_fst (s : State) (o : AnswerOutcome) :
    (closing s o).1 = ((s.settleCandidate o).1.settleHolder (o == .good .taken)).1.endRound.countRound := rfl

theorem counts_ended (h : provisionals s + holdings s = 0) : provisionals s.endRound.countRound + holdings s.endRound.countRound = 0 := by
  rw [countRound_frame]
  exact h

theorem holds_closing (o : AnswerOutcome) (hs : Holds 1 s) : Holds 0 (closing s o).1 := by
  obtain ⟨hresult, hlast, -⟩ := holds_counted (closing_counted o) hs
  have hcandidate : Chain .close s (s.settleCandidate o) := settleCandidate_chain o
  have hone := (holds_chain hcandidate hs).2.2
  have hzero : provisionals (closing s o).1 + holdings (closing s o).1 = 0 := by
    rw [closing_fst]
    exact counts_ended (counts_settleHolder _ hone)
  exact ⟨hresult, hlast, hzero.le⟩

/-! ## Every command -/

/-- The law of the obligation: one thing is held at most, while this station drives TAKEN. -/
theorem holdingAgrees_iff (s : State) :
    HoldingAgrees s ↔ (s.held = false → Holds (if drivesTaken s.span.phase then 1 else 0) s) := Iff.rfl

theorem holdingAgrees_of_none (h : s.held = false → Holds 0 s) : HoldingAgrees s := fun hheld => (h hheld).mono (Nat.zero_le _)

theorem holds_of_empty (hslots : s.slots = slotsReset) (hinbound : s.inbound = []) : Holds 0 s := by
  have hfree : ∀ i, (s.slot i).state ≠ .holding := fun i => by simp [State.slot, hslots, slotsReset, freeSlot]
  refine ⟨fun i hi => absurd hi (hfree i), by simp [hinbound], ?_⟩
  have : holdings s = 0 := by
    rw [holdings_eq, List.countP_eq_zero]
    exact fun i _ => by simpa using hfree i
  simp [provisionals, hinbound, this]

/-- An event that leaves the span unit and holds no more. -/
theorem holdingAgrees_chain (h : Chain p s e) (hspan : e.1.span = s.span) (hs : HoldingAgrees s) : HoldingAgrees e.1 := fun hheld => by
  rw [hspan]
  exact holds_chain h (hs (chain_held h ▸ hheld))

theorem holdingAgrees_done (h : HoldingAgrees e.1) : HoldingAgrees e.done := h

theorem holdingAgrees_port {port : NodePort} (h : HoldingAgrees s) : HoldingAgrees { s with port := port } := h

theorem held_of_takesPart (hpart : s.takesPart = true) : s.held = false := by
  simp only [State.takesPart, Bool.and_eq_true, Bool.not_eq_true'] at hpart
  exact hpart.1

/-- Outside an answer window in which this station drives TAKEN nothing is held. -/
theorem holds_of_phase (hs : HoldingAgrees s) (hpart : s.takesPart = true) {phase : Phase} (hphase : s.span.phase = phase)
    (hdrives : drivesTaken phase = false) : Holds 0 s := by
  have h := (holdingAgrees_iff s).mp hs (held_of_takesPart hpart)
  rwa [hphase, hdrives] at h

theorem drivesTaken_of_hears {settle : Bool} {sent : Option ParcelWords} (h : Hears s settle sent) : drivesTaken s.span.phase = false := by
  rcases h with ⟨picture, -, hphase, -⟩ | hphase <;> rw [hphase] <;> rfl

theorem holds_one (hs : HoldingAgrees s) (hpart : s.takesPart = true) : Holds 1 s := by
  have h := (holdingAgrees_iff s).mp hs (held_of_takesPart hpart)
  exact h.mono (by split <;> simp)

/-- A RETURN that is taken makes its slot HOLDING, where none is (R79). -/
theorem holds_takesReturn {k : SlotNo} {result : FetchResult} (hs : Holds 0 s) :
    Holds 1 (s.setSlot k { s.slot k with state := .holding, held := some result }) := by
  obtain ⟨hresult, hlast, hcount⟩ := hs
  refine ⟨fun i hi => ?_, hlast, ?_⟩
  · rw [State.slot_setSlot] at hi ⊢
    split at hi
    · rw [if_pos ‹_›]; rfl
    · rw [if_neg ‹_›]; exact hresult i hi
  · have hold : s.slots.toList.countP (fun f => f.state == .holding) = 0 := Nat.le_zero.mp ((Nat.le_add_left _ _).trans hcount)
    have hnew : holdings (s.setSlot k { s.slot k with state := .holding, held := some result }) ≤ 1 := by
      rw [holdings, State.setSlot, Vector.toList_set, List.countP_set (by simp), hold]
      simp
    have hprovisional : provisionals s = 0 := Nat.le_zero.mp ((Nat.le_add_right _ _).trans hcount)
    rw [show provisionals (s.setSlot k _) = provisionals s from rfl, hprovisional, Nat.zero_add]
    exact hnew

/-- An entry that is taken joins provisionally, where none is (R97). -/
theorem holds_takesEntry {x : InboundEntry} (hs : Holds 0 s) : Holds 1 { s with inbound := s.inbound ++ [x] } := by
  obtain ⟨hresult, hlast, hcount⟩ := hs
  have hnone : s.inbound.countP (·.provisional) = 0 := Nat.le_zero.mp ((Nat.le_add_right _ _).trans hcount)
  have hholding : holdings s = 0 := Nat.le_zero.mp ((Nat.le_add_left _ _).trans hcount)
  refine ⟨hresult, fun y hy => ?_, ?_⟩
  · rw [show ({ s with inbound := s.inbound ++ [x] } : State).inbound = s.inbound ++ [x] from rfl, List.dropLast_concat] at hy
    simpa using List.countP_eq_zero.mp hnone y hy
  · rw [show holdings { s with inbound := s.inbound ++ [x] } = holdings s from rfl, hholding, provisionals, List.countP_append, hnone]
    simp only [Nat.zero_add, Nat.add_zero]
    exact List.countP_le_length

theorem holdingAgrees_happens {c : Instr} (h : Happens s c t) (hs : HoldingAgrees s) : HoldingAgrees t := by
  cases h with
  | asserts => exact fun hheld => by cases hheld
  | releases => exact holdingAgrees_of_none fun _ => holds_of_empty rfl rfl
  | restarts => exact holdingAgrees_of_none fun _ => holds_of_empty rfl rfl
  | marks hpart hphase =>
    have hnone := holds_of_phase hs hpart hphase rfl
    have h := freeze_offer s
    generalize s.freeze s.offer = t at h ⊢
    refine holdingAgrees_of_none fun _ => ?_
    cases h <;> exact hnone
  | owns picture hpart hphase =>
    have hnone := holds_of_phase hs hpart hphase rfl
    exact holdingAgrees_of_none fun _ => hnone
  | yields picture hpart hphase =>
    have hnone := holds_of_phase hs hpart hphase rfl
    exact holdingAgrees_of_none fun _ => holds_chain (yields_chain picture _) hnone
  | opens picture owned settle hpart hphase =>
    have hnone := holds_of_phase hs hpart hphase rfl
    exact holdingAgrees_of_none fun _ => hnone
  | idles owned settle hpart hphase =>
    have hnone := holds_of_phase hs hpart hphase rfl
    rw [countRound_frame]
    exact holdingAgrees_of_none fun _ => hnone
  | outcome settle sent report _ hpart hhears =>
    exact holdingAgrees_of_none fun _ =>
      holds_counted (parcelOutcome_counted settle sent report hpart) (holds_of_phase hs hpart rfl (drivesTaken_of_hears hhears))
  | silent asked driven hpart hphase =>
    have hnone := holds_of_phase hs hpart hphase rfl
    exact holdingAgrees_of_none fun _ => hnone
  | declines asked driven code hpart hphase =>
    have hnone := holds_of_phase hs hpart hphase rfl
    exact holdingAgrees_of_none fun _ => hnone
  | takesReturn asked driven k result hpart hphase =>
    have hnone := holds_of_phase hs hpart hphase rfl
    exact fun _ => holds_takesReturn hnone
  | takesEntry asked driven x hpart hphase =>
    have hnone := holds_of_phase hs hpart hphase rfl
    exact fun _ => holds_takesEntry hnone
  | closes ask driven o hpart hphase =>
    have hclosed : HoldingAgrees (closing s o).1 := holdingAgrees_of_none fun _ => holds_closing o (holds_one hs hpart)
    exact holdingAgrees_done hclosed
  | expires k => exact holdingAgrees_done (holdingAgrees_chain (expires_chain s k) (RoundLaw.memory_span rfl (expires_chain s k)) hs)
  | writes x rest a ending _ hstate =>
    exact holdingAgrees_done (holdingAgrees_chain (writes_chain x ending hstate) (RoundLaw.memory_span rfl (writes_chain x ending hstate)) hs)
  | reads x rest a ending _ hstate =>
    exact holdingAgrees_done (holdingAgrees_chain (reads_chain x ending hstate) (RoundLaw.memory_span rfl (reads_chain x ending hstate)) hs)
  | lands k a status =>
    rw [State.pathFallsFree_frame]
    intro hheld
    obtain ⟨hresult, hlast, hcount⟩ := hs hheld
    have hslots : HoldsOnly s (s.setSlot k freeSlot) := holdsOnly_setSlot fun h => by cases h
    exact ⟨result_of_holdsOnly hslots hresult, hlast, (Nat.add_le_add_left (holdings_le hslots) _).trans hcount⟩
  | frees => rw [State.pathFallsFree_frame]; exact hs
  | masks mask =>
    have hmasked : HoldingAgrees (s.applyMask mask).1 := by
      rw [State.applyMask]
      exact hs
    exact holdingAgrees_port (holdingAgrees_done hmasked)
  | pops record rest => cases record <;> exact hs
  | _ => exact hs

/-- Settles O19: no act adds to what is held; an answer that is TAKEN adds one where nothing is held, and its answer close settles it. -/
theorem holdingKept : Obligations.HoldingKept := by
  intro s t hs hstep
  rcases step_happens hstep with rfl | ⟨c, rest, h⟩
  · exact hs
  · exact holdingAgrees_happens (s := { s with pending := rest }) h hs

end Sys2Proof.Holding
end

section
/-! The deeds that make up a parcel outcome, the release of a candidate and the sender's part of an answer close: each is one operation of one block
after which the laws of the station hold again (R9, R11, R44 to R55, R67 to R71, R108 to R110, R135, R140). -/

namespace Sys2Proof.Walk

open Sys2Proof.Machine Sys2Proof.Safety Sys2Proof.Events Sys2Proof.Acts Sys2Proof.Rounds

/-- No RETURN is in flight. -/
def NoReturn (s : State) : Prop := ∀ r ∈ s.returns, r.inFlight = false

/-- A good parcel of `d` meets no RETURN in flight, but this station's own parcel (R7, R107). -/
def Meets (s : State) (d : Station) : Prop := NoReturn s ∨ s.isSelf d = true

/-- One deed of the station `s`. -/
inductive Deed (s : State) : State → Prop
  | span (u : SpanUnit) : u.candidate = s.span.candidate → Deed s { s with span := u }
  | turn (r : TurnRecord) : Deed s { s with turn := r }
  | release : Deed s s.releaseCandidate.1
  | sent : Deed s s.broadcastSent
  | counted : Deed s s.countRound
  | offline : s.span.candidate = none → s.station = .listening ∨ s.station = .active → Deed s s.goOffline
  | hears (d : Station) (room : Bool) : Deed s (s.hear d room)
  | halts (d : Station) : Meets s d → Deed s (s.peerHalts d).1
  | restarts (d : Station) : Deed s (s.peerRestarts d).1
  | fault (r : FaultRecord) : Deed s (s.addFault r)
  | contained (cause : FaultCause) (addr : Word) (length : Nat) : s.station = .active → s.contain.flag = false →
      Deed s (s.enterContainment cause addr length).1
  | haltedBy (d : Station) (room : Bool) (addr : Word) (length : Nat) : Meets s d → s.station = .active → s.contain.flag = false →
      (s.reachOf d).state ≠ .self → Deed s (s.haltedBy d room addr length).1
  | books (d : Station) : Deed s (s.bookReply d)
  | stays (d : Station) (status : Status) : Deed s (s.closeLane d status).1
  | busy (d : Station) : s.station ≠ .contained → Deed s (s.raiseFull.replyBusy d)
  | released : s.station ≠ .contained → Deed s s.releaseInFlight
  | leaves : Deed s s.removeInFlight
  | taken (e : SendEntry) : s.station = .active → s.inFlightEntry = some e → Deed s ((s.bookReply e.dest).entryTaken e).1
  | silent (d : Station) : NoReturn s → Deed s (s.noReply d).1
  | returnLeaves : Deed s s.removeReturn
  | returnSilent (d : Station) : (∀ r ∈ s.returns, r.inFlight = true → r.requester = d) → Deed s (s.settleReturn d .void).1

/-- A run of deeds. -/
abbrev Deeds : State → State → Prop := Relation.ReflTransGen Deed

variable {s t : State}

theorem Deed.one (h : Deed s t) : Deeds s t := .single h

/-- A law that every deed keeps is kept by a run of them. -/
theorem keeps_of_deeds {Law : State → Prop} (hdeed : ∀ s t, Deed s t → Law s → Law t) (h : Deeds s t) (hs : Law s) : Law t := by
  induction h with
  | refl => exact hs
  | tail _ hd ih => exact hdeed _ _ hd ih

/-! ## A good parcel consumed -/

theorem reachConsumes_deeds {d : Station} (room : Bool) (body : Option Body) (h : Meets s d) : Deeds s (s.reachConsumes d room body).1 := by
  have hheard : Deeds s (s.hear d room) := (Deed.hears d room).one
  unfold State.reachConsumes
  split
  · exact (Deed.restarts d).one
  · exact hheard.tail (.halts d h)
  · refine hheard.trans ?_
    unfold State.peerFaults
    split <;> exact .refl
  · exact hheard

theorem containConsumes_deeds (d : Station) (body : Option Body) : Deeds s (s.containConsumes d body).1 := by
  unfold State.containConsumes
  split
  · split
    · unfold State.implicated
      rw [Effect.andThen_fst]
      split
      · rename_i hhalts
        obtain ⟨hactive, -, hflag⟩ := (implicationHalts_iff _).mp hhalts
        have hfault : ∀ r, (s.addFault r).station = s.station := fun r => by simp
        exact (Deed.fault _).one.tail (.contained _ _ _ ((hfault _).trans hactive) ((addFault_flag _ _).trans hflag))
      · split
        · exact (Deed.fault _).one
        · exact .refl
    · exact .refl
  · exact .refl

theorem consume_deeds {d : Station} (room : Bool) (body : Option Body) (h : Meets s d) : Deeds s (s.consume d room body).1 := by
  rcases consume_cases s d room body with ⟨hboth, cause, named, addr, length, -, he⟩ | ⟨-, he⟩ <;> rw [he]
  · obtain ⟨-, hself, hhalts, -⟩ := haltsBoth_spec hboth
    obtain ⟨hactive, -, hflag⟩ := (implicationHalts_iff s).mp hhalts
    exact (Deed.haltedBy d room addr length h hactive hflag hself).one
  · rw [Effect.andThen_fst]
    exact (reachConsumes_deeds room body h).trans (containConsumes_deeds d body)

/-! ## The parcel outcome -/

theorem releaseCandidate_candidate (s : State) : s.releaseCandidate.1.span.candidate = none := by rw [releaseCandidate_span]

theorem endRound_deed (h : s.span.candidate = none) : Deed s s.endRound := .span _ h.symm

theorem afterParcel_deeds (answered : Bool) (ask : Option (Station × Body)) : Deeds s (s.afterParcel answered ask).1 := by
  cases answered with
  | true => exact (Deed.span { s.span with phase := .answer ask none } rfl).one
  | false => exact (Deed.release.one.tail (endRound_deed (releaseCandidate_candidate s))).tail .counted

theorem duplicate_deeds (hnone : s.span.candidate = none) (hpart : s.takesPart = true) : Deeds s s.duplicate.1 := by
  unfold State.duplicate
  split
  · exact (Deed.span { s.span with callBar := true } rfl).one
  · exact (Deed.offline hnone (station_of_takesPart hpart ‹_›)).one

theorem collide_deeds (hnone : s.span.candidate = none) (hpart : s.takesPart = true) : Deeds s s.collide.1 := by
  have hspan : Deed s { s with span := { s.span with settleCollision := min (s.span.settleCollision + 1) Config.collisionLimit } } :=
    .span _ rfl
  unfold State.collide
  dsimp only
  split
  · exact hspan.one.trans (duplicate_deeds hnone hpart)
  · exact hspan.one

theorem duplicate_candidate (hnone : s.span.candidate = none) : s.duplicate.1.span.candidate = none := by
  unfold State.duplicate
  split
  · exact hnone
  · rfl

theorem collide_candidate (hnone : s.span.candidate = none) : s.collide.1.span.candidate = none := by
  unfold State.collide
  dsimp only
  split
  · exact duplicate_candidate hnone
  · exact hnone

theorem garbledRound_deeds (collision : Bool) (hpart : s.takesPart = true) : Deeds s (s.garbledRound collision).1 := by
  have hvoid : Deeds s s.voidRound.1 := (Deed.span { s.span with voidRun := bump s.span.voidRun } rfl).one.tail (.turn _)
  have hreleased : Deeds s s.voidRound.1.releaseCandidate.1 := hvoid.tail .release
  have hpart' : s.voidRound.1.releaseCandidate.1.takesPart = true := (releaseCandidate_takesPart _).trans hpart
  have hnone := releaseCandidate_candidate s.voidRound.1
  unfold State.garbledRound
  rw [Effect.andThen_fst, Effect.andThen_fst, Effect.andThen_fst, quiet_fst]
  cases collision with
  | false => exact hreleased.tail (endRound_deed hnone)
  | true => exact (hreleased.trans (collide_deeds hnone hpart')).tail (endRound_deed (collide_candidate hnone))

theorem goodParcel_deeds (own : Bool) (w : ParcelWords) (hpart : s.takesPart = true) (hother : own = false → s.span.candidate = none)
    (hmeets : ∀ d : Station, (own = true → (readHeader w.header0 w.header1).sender = d.val) → Meets s d) : Deeds s (s.goodParcel own w).1 := by
  have hgood : Deed s s.goodRound := .span _ rfl
  unfold State.goodParcel
  dsimp only
  split
  · rename_i sender stamp hsender _
    split
    · rename_i hdup
      have hnone : s.goodRound.span.candidate = none := hother (by simpa using (Bool.and_eq_true_iff.mp hdup).2)
      rw [Effect.andThen_fst]
      refine (hgood.one.trans (duplicate_deeds hnone hpart)).trans ?_
      split
      · exact .refl
      · exact afterParcel_deeds _ _
    · rw [Effect.andThen_fst]
      have hmeets' : Meets { s.goodRound with turn := adopt s.goodRound.turn stamp sender (helloClass (readBody (readHeader w.header0 w.header1).kind w.body)) } sender :=
        hmeets sender fun _ => by
          unfold station? at hsender
          split at hsender
          · exact (congrArg Fin.val (Option.some.inj hsender))
          · cases hsender
      exact (((hgood.one.tail (.turn _)).trans (consume_deeds _ _ hmeets')).tail .sent).trans (afterParcel_deeds _ _)
  · exact hgood.one.trans (afterParcel_deeds _ _)

theorem parcelOutcome_deeds (hs : RoundAgrees s) (hpart : s.takesPart = true) {settle : Bool} {sent : Option ParcelWords} (report : LineReport)
    (h : Hears s settle sent) : Deeds s (s.parcelOutcome settle sent report).1 := by
  obtain ⟨hnone, hown⟩ := RoundLaw.hears_spec hs h
  cases report with
  | empty => exact garbledRound_deeds _ hpart
  | garbled => exact garbledRound_deeds _ hpart
  | intact h0 h1 body =>
    refine goodParcel_deeds _ _ hpart (fun hown => hnone (by cases sent with | none => rfl | some w => cases hown)) fun d hd => ?_
    cases sent with
    | none =>
      have hmarks := (noMarks_of_candidate_none (marked_of_round hs) (hnone rfl)).2
      exact .inl fun r hr => by simpa using List.countP_eq_zero.mp hmarks r hr
    | some w =>
      right
      have hsender : (readHeader w.header0 w.header1).sender = d.val := hd rfl
      rw [hown w rfl] at hsender
      simpa [State.isSelf] using hsender.symm

theorem yields_deeds (picture : StationSet) : Deeds s (s.withPhase (.closed picture false s.turn.settle)).releaseCandidate.1 :=
  (Deed.span { s.span with phase := .closed picture false s.turn.settle } rfl).one.tail .release

/-! ## The sender's part of an answer close -/

/-- A no-reply changes the reach table and what the closing of a station touches (R64, R71). -/
theorem noReply_frame (s : State) (d : Station) :
    (s.noReply d).1 =
      { s with
        reach := (s.noReply d).1.reach, sendQueue := (s.noReply d).1.sendQueue, slots := (s.noReply d).1.slots
        returns := (s.noReply d).1.returns, engine := (s.noReply d).1.engine, path := (s.noReply d).1.path } := by
  rcases s.noReply_cases d with ⟨-, h⟩ | ⟨-, -, h⟩ | ⟨-, -, h⟩ <;> rw [h]
  · rfl
  · rw [(State.closeDestination_spec _ d .unreachable).1]
    rfl
  · rfl

theorem settleEntry_deeds {e : SendEntry} (o : AnswerOutcome) (hactive : s.station = .active) (h : s.inFlightEntry = some e) (hno : NoReturn s) :
    Deeds s (s.settleEntry e o).1 := by
  have hne : s.station ≠ .contained := by simp [hactive]
  have hbooked : Deeds s (s.bookReply e.dest) := (Deed.books e.dest).one
  have hsilent : Deeds s ((s.noReply e.dest).andThen fun s' => quiet s'.releaseInFlight).1 :=
    (Deed.silent e.dest hno).one.tail (.released (by rw [noReply_frame]; exact hne))
  cases o with
  | void => exact hsilent
  | silent => exact hsilent
  | good code =>
    cases code with
    | taken => exact (Deed.taken e hactive h).one
    | full =>
      simp only [State.settleEntry]
      split
      · exact (Deed.busy e.dest hne).one
      · exact hbooked.tail (.stays e.dest _)
    | outside => exact hbooked.tail (.stays e.dest _)
    | refused => exact (((Deed.stays e.dest _).one).tail (.books e.dest)).tail (.halts e.dest (.inl hno))
    | stale => exact hbooked.tail (.released hne)

theorem bookAnswer_deeds (d : Station) (o : AnswerOutcome) (hno : NoReturn s) : Deeds s (s.bookAnswer d o).1 := by
  have hbooked : Deeds s (s.bookReply d) := (Deed.books d).one
  unfold State.bookAnswer
  split
  · exact hbooked.tail (.halts d (.inl hno))
  · exact hbooked
  · exact hbooked
  · exact hbooked
  · exact hbooked
  · exact (Deed.silent d hno).one
  · exact (Deed.silent d hno).one

/-- A POST or SIGNAL that is taken leaves the queue (R44). -/
theorem entryTaken_leaves {e : SendEntry} (h : e.kind ≠ .fetch) : (s.entryTaken e).1 = s.removeInFlight := by
  unfold State.entryTaken
  cases hop : e.op <;> simp_all [SendEntry.kind]

theorem settleContained_deeds (e : SendEntry) (o : AnswerOutcome) (hno : NoReturn s) : Deeds s (s.settleContained e o).1 := by
  have hleaves : (if o = .good .taken ∧ e.kind ≠ .fetch then s.entryTaken e else s.failInFlight).1 = s.removeInFlight := by
    split
    · rename_i h
      exact entryTaken_leaves h.2
    · rfl
  unfold State.settleContained
  rw [Effect.andThen_fst, hleaves]
  exact Deed.leaves.one.trans (bookAnswer_deeds e.dest o hno)

theorem settleReturn_deeds {d : Station} (o : AnswerOutcome) (h : ∀ r ∈ s.returns, r.inFlight = true → r.requester = d) :
    Deeds s (s.settleReturn d o).1 := by
  have hbooked : Deeds s (s.bookReply d).removeReturn := (Deed.books d).one.tail .returnLeaves
  have hno : NoReturn (s.removeReturn.bookReply d) := fun r hr => by
    rw [State.removeReturn_frame] at hr
    simpa using (List.mem_filter.mp hr).2
  cases o with
  | void => exact (Deed.returnSilent d h).one
  | silent => exact (Deed.returnSilent d h).one
  | good code =>
    cases code with
    | taken => exact hbooked
    | stale => exact hbooked
    | full => exact hbooked
    | outside => exact hbooked
    | refused => exact ((Deed.returnLeaves).one.tail (.books d)).tail (.halts d (.inl hno))

/-- One RETURN in flight at most: all of them go to its requester. -/
theorem requester_of_inFlight {r : ReturnEntry} (hone : s.returns.countP (·.inFlight) ≤ 1) (h : s.inFlightReturn = some r) :
    ∀ x ∈ s.returns, x.inFlight = true → x.requester = r.requester := by
  obtain ⟨hr, older, younger, hsplit, -⟩ := List.find?_eq_some_iff_append.mp h
  rw [hsplit, List.countP_append, List.countP_cons, if_pos hr] at hone
  have hzero : older.countP (·.inFlight) = 0 ∧ younger.countP (·.inFlight) = 0 := by omega
  intro x hx hflight
  rw [hsplit] at hx
  rcases List.mem_append.mp hx with hx | hx
  · exact absurd hflight (List.countP_eq_zero.mp hzero.1 x hx)
  · rcases List.mem_cons.mp hx with rfl | hx
    · rfl
    · exact absurd hflight (List.countP_eq_zero.mp hzero.2 x hx)

theorem settleCandidate_deeds (hs : RoundAgrees s) (o : AnswerOutcome) : Deeds s (s.settleCandidate o).1 := by
  obtain ⟨-, hmark, hcandidate, -, -, hreturn, -⟩ := hs
  have hcalls : s.source?.isSome = true → s.station = .active ∨ s.station = .contained := fun h =>
    (hmark (hcandidate (by simpa [State.source?] using h))).2
  unfold State.settleCandidate
  split
  · rename_i hsource
    have hno : NoReturn s := by
      rw [marks, if_neg (by simp [hsource])] at hreturn
      exact fun r hr => by simpa using List.countP_eq_zero.mp hreturn r hr
    split
    · rename_i e he
      split
      · exact settleContained_deeds e o hno
      · exact settleEntry_deeds o ((hcalls (by simp [hsource])).resolve_right ‹_›) he hno
    · exact .refl
  · rename_i hsource
    rw [marks, if_pos hsource] at hreturn
    split
    · exact settleReturn_deeds o (requester_of_inFlight hreturn.le ‹_›)
    · exact .refl
  · exact .refl

/-! ## What a settlement leaves -/

/-- What a settlement touches: the tables and queues, and the engine that waits for room (R44 to R55, R63 to R71, R108 to R110). -/
def Settles (s t : State) : Prop :=
  t = { s with sendQueue := t.sendQueue, reach := t.reach, slots := t.slots, returns := t.returns, engine := t.engine, path := t.path }

theorem settles_trans {u : State} (h : Settles s t) (h' : Settles t u) : Settles s u := by
  unfold Settles at h h' ⊢
  rw [h] at h'
  exact h'

theorem settles_andThen {e : Effect} {f : State → Effect} (h : Settles s e.1) (h' : ∀ t, Settles t (f t).1) : Settles s (e.andThen f).1 :=
  settles_trans h (h' e.1)

theorem noReply_settles (s : State) (d : Station) : Settles s (s.noReply d).1 := by
  rw [noReply_frame]
  rfl

theorem peerHalts_settles (s : State) (d : Station) : Settles s (s.peerHalts d).1 := by
  rcases s.peerHalts_cases d with ⟨-, h⟩ | ⟨-, -, h, -⟩ <;> rw [h]
  · rfl
  · rw [(State.closeDestination_spec _ d .destContained).1]
    rfl

theorem replyRefused_settles (s : State) (d : Station) : Settles s (s.replyRefused d).1 :=
  settles_trans (t := s.bookReply d) rfl (peerHalts_settles _ d)

theorem replyBusy_settles (s : State) (d : Station) : Settles s (s.replyBusy d) := by
  unfold State.replyBusy
  dsimp only
  split <;> rfl

/-- An entry that is taken leaves the send queue, and a FETCH makes its slot AWAITING (R44, R78). -/
theorem entryTaken_frame (s : State) (x : SendEntry) :
    (s.entryTaken x).1 = { s with sendQueue := (s.entryTaken x).1.sendQueue, slots := (s.entryTaken x).1.slots } := by
  unfold State.entryTaken
  split <;> rfl

theorem entryTaken_settles (s : State) (x : SendEntry) : Settles s (s.entryTaken x).1 := by
  rw [entryTaken_frame]
  rfl

theorem settleEntry_settles (s : State) (x : SendEntry) (o : AnswerOutcome) : Settles s (s.settleEntry x o).1 := by
  have hsilent : Settles s ((s.noReply x.dest).andThen fun s' => quiet s'.releaseInFlight).1 :=
    settles_andThen (noReply_settles s x.dest) fun _ => rfl
  cases o with
  | void => exact hsilent
  | silent => exact hsilent
  | good code =>
    cases code with
    | taken => exact settles_trans (t := s.bookReply x.dest) rfl (entryTaken_settles _ x)
    | full =>
      simp only [State.settleEntry]
      split
      · exact settles_trans (t := s.raiseFull) rfl (replyBusy_settles _ _)
      · rfl
    | outside => rfl
    | refused => exact settles_andThen rfl fun t => replyRefused_settles t x.dest
    | stale => rfl

theorem bookAnswer_settles (s : State) (d : Station) (o : AnswerOutcome) : Settles s (s.bookAnswer d o).1 := by
  unfold State.bookAnswer
  split
  · exact replyRefused_settles s d
  · rfl
  · rfl
  · rfl
  · rfl
  · exact noReply_settles s d
  · exact noReply_settles s d

theorem settleContained_settles (s : State) (x : SendEntry) (o : AnswerOutcome) : Settles s (s.settleContained x o).1 := by
  unfold State.settleContained
  refine settles_andThen ?_ fun t => bookAnswer_settles t x.dest o
  split
  · exact entryTaken_settles s x
  · rfl

theorem removeReturn_settles (s : State) : Settles s s.removeReturn := by
  rw [State.removeReturn_frame]
  rfl

theorem settleReturn_settles (s : State) (d : Station) (o : AnswerOutcome) : Settles s (s.settleReturn d o).1 := by
  have hbooked : Settles s (s.bookReply d).removeReturn := settles_trans (t := s.bookReply d) rfl (removeReturn_settles _)
  unfold State.settleReturn
  split
  · exact hbooked
  · exact hbooked
  · exact hbooked
  · exact hbooked
  · exact settles_andThen (removeReturn_settles s) fun t => replyRefused_settles t d
  all_goals
    refine settles_andThen (noReply_settles s d) fun t => ?_
    split
    · exact removeReturn_settles t
    · rfl

theorem settleCandidate_settles (s : State) (o : AnswerOutcome) : Settles s (s.settleCandidate o).1 := by
  unfold State.settleCandidate
  split
  · split
    · split
      · exact settleContained_settles _ _ o
      · exact settleEntry_settles _ _ o
    · rfl
  · split
    · exact settleReturn_settles _ _ o
    · rfl
  · rfl

end Sys2Proof.Walk
end

section
/-! Every command keeps the apply engine, the path, the return list and the head of the inbound queue in agreement (R99 to R101, R103, R104, R106,
R112, R114, R151; log 8). -/

namespace Sys2Proof.Engine

open Sys2Proof.Machine Sys2Proof.Safety Sys2Proof.Events Sys2Proof.Acts Sys2Proof.Selector Sys2Proof.Rounds Sys2Proof.Walk Sys2Proof.Controller
  Sys2Proof.FetchTable

variable {s t : State} {e : Effect}

/-! ## The law, and the fields of which it speaks -/

/-- The entry in progress is the head of the inbound queue (R99 to R101). -/
def HeadLaw (s : State) : Prop :=
  (s.engine = .idle → s.station = .contained ∨ (s.inbound.head?.all (·.provisional)) = true) ∧
    (s.engine = .roomWait → (headAccess s).any isRead = true ∧ s.returns.length = Config.returnCapacity) ∧
    (s.engine = .pathWait → (headAccess s).isSome = true ∧ s.path.applyWaiting = headAccess s) ∧
    (s.engine = .inAccess → ∃ a ∈ headAccess s, s.path.state = .busy .apply a)

/-- The engine, the path, the return list and the head agree. -/
def EngineHolds (s : State) : Prop := EngineAgrees s ∧ HeadLaw s

theorem headAgrees_iff (s : State) : HeadAgrees s ↔ (s.held = false → HeadLaw s) := Iff.rfl

theorem headAccess_congr (h : t.inbound = s.inbound) : headAccess t = headAccess s := by rw [headAccess, headAccess, h]

theorem headAccess_of_post {x : InboundEntry} {rest : List InboundEntry} {addr : Word} {data : List Word} (h : s.inbound = x :: rest)
    (hcommitted : x.provisional = false) (hop : x.op = .post addr data) : headAccess s = some (.write addr data) := by
  cases x
  simp_all [headAccess]

theorem headAccess_of_fetch {x : InboundEntry} {rest : List InboundEntry} {addr : Word} {length : Nat} {tag : SlotNo} (h : s.inbound = x :: rest)
    (hcommitted : x.provisional = false) (hop : x.op = .fetch addr length tag) : headAccess s = some (.read addr length) := by
  cases x
  simp_all [headAccess]

/-- Only a committed POST or FETCH at the head asks for an access. -/
theorem committed_of_headAccess {a : Access} (h : headAccess s = some a) :
    ∃ x rest, s.inbound = x :: rest ∧ x.provisional = false ∧ ∀ n, x.op ≠ .signal n := by
  unfold headAccess at h
  cases hinbound : s.inbound with
  | nil => simp [hinbound] at h
  | cons x rest =>
    obtain ⟨op, source, provisional⟩ := x
    cases provisional <;> cases op <;> simp_all

theorem holds_congr (hs : EngineHolds s) (hengine : t.engine = s.engine) (hpath : t.path = s.path) (hinbound : t.inbound = s.inbound)
    (hreturns : t.returns.length = s.returns.length) (hstation : s.station = .contained → t.station = .contained) : EngineHolds t := by
  obtain ⟨hagrees, hidle, hroom, hwait, haccess⟩ := hs
  unfold EngineHolds EngineAgrees HeadLaw
  rw [hengine, hpath, hreturns, hinbound, headAccess_congr hinbound]
  exact ⟨hagrees, fun h => (hidle h).imp_left hstation, hroom, hwait, haccess⟩

/-- An event that leaves the engine, the path, the inbound queue, the return list and the station state. -/
theorem holds_same (hs : EngineHolds s) (hengine : t.engine = s.engine) (hpath : t.path = s.path) (hinbound : t.inbound = s.inbound)
    (hreturns : t.returns = s.returns) (hstation : t.station = s.station) : EngineHolds t :=
  holds_congr hs hengine hpath hinbound (congrArg _ hreturns) fun h => hstation.trans h

/-! ## An engine that carries nothing -/

/-- No access of the engine's is in flight or waits, nothing waits at a FREE path, and the return list holds 8 RETURNs at most. -/
def Ready (s : State) : Prop :=
  serving (fun _ => true) s.path = false ∧ s.path.applyWaiting = none ∧ (s.path.state = .free → s.path.landingWaiting = []) ∧
    s.returns.length ≤ Config.returnCapacity

theorem serving_of_none {m : MemPath} {p : Access → Bool} (h : serving (fun _ => true) m = false) : serving p m = false := by
  unfold serving at h ⊢
  split
  · rename_i hstate
    rw [hstate] at h
    cases h
  · rfl

theorem ready_of_agrees (hs : EngineAgrees s) (haccess : s.engine ≠ .inAccess) (hwait : s.engine ≠ .pathWait) : Ready s := by
  obtain ⟨hin, hpath, hfree, hlength, -⟩ := hs
  refine ⟨?_, ?_, fun h => (hfree h).2, hlength⟩
  · simpa using fun h => haccess (hin.mpr h)
  · simpa using fun h => hwait (hpath.mpr h)

/-- An engine that carries nothing and is IDLE, STOPPED or in ROOM_WAIT. -/
theorem agrees_of_ready (hs : Ready s) (haccess : s.engine ≠ .inAccess) (hwait : s.engine ≠ .pathWait) : EngineAgrees s := by
  obtain ⟨hserving, hnone, hfree, hlength⟩ := hs
  refine ⟨iff_of_false haccess (by simp [hserving]), iff_of_false hwait (by simp [hnone]), fun h => ⟨hnone, hfree h⟩, hlength, fun h => ?_⟩
  rw [hnone, serving_of_none hserving] at h
  simp at h

theorem holds_stopped (hs : Ready s) : EngineHolds { s with engine := .stopped } :=
  ⟨agrees_of_ready (s := { s with engine := .stopped }) hs (by simp) (by simp), fun h => (by cases h), fun h => (by cases h), fun h => (by cases h),
    fun h => by cases h⟩

/-- The engine that asks for the access of its head (R100, R101, R112). -/
theorem holds_askApply {a : Access} (hs : Ready s) (hhead : headAccess s = some a) (hroom : isRead a = true → s.returns.length < Config.returnCapacity) :
    EngineHolds (s.askApply a) := by
  obtain ⟨hserving, hnone, hfree, hlength⟩ := hs
  rcases s.askApply_cases a with ⟨hstate, h⟩ | ⟨hstate, h⟩ <;> rw [h]
  · refine ⟨⟨by simp [serving], ?_, fun h => (by cases h), hlength, fun h => ?_⟩, fun h => (by cases h), fun h => (by cases h), fun h => (by cases h),
      fun _ => ⟨a, hhead, rfl⟩⟩
    · simp [hnone]
    · rcases h with h | h
      · exact hroom h
      · simp [hnone] at h
  · refine ⟨⟨by simpa [serving] using hserving, by simp, fun h => absurd h hstate, hlength, fun h => ?_⟩, fun h => (by cases h), fun h => (by cases h),
      fun _ => ⟨?_, ?_⟩, fun h => by cases h⟩
    · rcases h with h | h
      · have hread : serving isRead s.path = true := h
        rw [serving_of_none hserving] at hread
        cases hread
      · exact hroom h
    · exact (congrArg Option.isSome hhead)
    · exact hhead.symm

/-- No committed SIGNAL stands at the head of the inbound queue (R102). -/
def Raised (s : State) : Prop := ∀ e rest, s.inbound = e :: rest → e.provisional = false → ∀ n, e.op ≠ .signal n

theorem raised_of_headAccess {a : Access} (h : headAccess s = some a) : Raised s := by
  obtain ⟨x, rest, hinbound, -, hop⟩ := committed_of_headAccess h
  intro y rest' h' _
  rw [hinbound] at h'
  cases h'
  exact hop

/-- The engine that looks at a head that is no SIGNAL (R99 to R101). -/
theorem holds_applyHead (hs : Ready s) (hraised : Raised s) : EngineHolds s.applyHead := by
  have hidle : (s.inbound.head?.all (·.provisional)) = true → EngineHolds { s with engine := .idle } := fun h =>
    ⟨agrees_of_ready (s := { s with engine := .idle }) hs (by simp) (by simp), fun _ => .inr h, fun h => (by cases h), fun h => (by cases h),
      fun h => by cases h⟩
  unfold State.applyHead
  split
  · exact hidle (by simp [*])
  · rename_i e rest hinbound
    split
    · exact hidle (by simpa [hinbound] using ‹_›)
    · rename_i hcommitted
      rw [Bool.not_eq_true] at hcommitted
      split
      · rename_i addr data hop
        exact holds_askApply hs (headAccess_of_post hinbound hcommitted hop) (by simp [isRead])
      · rename_i addr length tag hop
        have hhead : headAccess s = some (.read addr length) := headAccess_of_fetch hinbound hcommitted hop
        split
        · exact holds_askApply hs hhead fun _ => ‹_›
        · rename_i hfull
          have hlength := hs.2.2.2
          refine ⟨agrees_of_ready (s := { s with engine := .roomWait }) hs (by simp) (by simp), fun h => (by cases h), fun _ => ⟨?_, ?_⟩,
            fun h => (by cases h), fun h => by cases h⟩
          · change (headAccess s).any isRead = true
            rw [hhead]
            rfl
          · change s.returns.length = _
            omega
      · exact absurd ‹_› (hraised e rest hinbound hcommitted _)

theorem raised_raiseHeads (q : List InboundEntry) (s : State) : Raised (s.raiseHeads q).1 := by
  induction q generalizing s with
  | nil => exact fun x rest h => by cases h
  | cons x rest ih =>
    unfold State.raiseHeads
    split
    · rename_i hprovisional
      intro y rest' h hcommitted
      cases h
      rw [hprovisional] at hcommitted
      cases hcommitted
    · split
      · exact ih _
      · rename_i hop
        intro y rest' h _ n
        cases h
        exact hop n

/-- The engine that takes its next head (R99, R102). -/
theorem holds_takeHead (hs : Ready s) : EngineHolds s.takeHead.1 := by
  rw [State.takeHead, Effect.andThen_fst, quiet_fst]
  exact holds_applyHead (by rw [(s.raiseHeads_spec s.inbound).1]; exact hs) (raised_raiseHeads s.inbound s)

theorem holds_engineGoesOn (hs : Ready s) : EngineHolds s.engineGoesOn.1 := by
  unfold State.engineGoesOn
  split
  · exact holds_stopped hs
  · exact holds_takeHead (s := { s with engine := .idle }) hs

theorem holds_wakeEngine (hs : EngineAgrees s) (hhead : s.engine ≠ .idle ∨ s.station = .contained → HeadLaw s) : EngineHolds s.wakeEngine.1 := by
  unfold State.wakeEngine
  split
  · rename_i h
    exact holds_takeHead (ready_of_agrees hs (by simp [h.1]) (by simp [h.1]))
  · rename_i h
    exact ⟨hs, hhead (by tauto)⟩

/-! ## The return list loses RETURNs, and the engine stops -/

/-- An engine in ROOM_WAIT goes on at the first event that leaves the return list with a place (R101, R103). -/
theorem holds_dropped (keep : ReturnEntry → Bool) (hs : EngineHolds s) : EngineHolds { s with returns := s.returns.filter keep }.leaveRoomWait := by
  obtain ⟨⟨hin, hpath, hfree, hlength, hread⟩, hidle, hroom, hwait, haccess⟩ := hs
  have hle := List.length_filter_le keep s.returns
  have hagrees : EngineAgrees { s with returns := s.returns.filter keep } :=
    ⟨hin, hpath, hfree, hle.trans hlength, fun h => hle.trans_lt (hread h)⟩
  unfold State.leaveRoomWait
  split
  · rename_i h
    obtain ⟨hengine, -⟩ := h
    have hraised : Raised s := by
      obtain ⟨a, ha, -⟩ := (Option.any_eq_true _ _).mp (hroom hengine).1
      exact raised_of_headAccess ha
    refine holds_applyHead (ready_of_agrees hagrees ?_ ?_) hraised
    · exact fun h' => by rw [hengine] at h'; cases h'
    · exact fun h' => by rw [hengine] at h'; cases h'
  · rename_i h
    refine ⟨hagrees, hidle, fun hengine => ?_, hwait, haccess⟩
    have hfull : ¬ (s.returns.filter keep).length < Config.returnCapacity := fun hlt => h ⟨hengine, hlt⟩
    exact ⟨(hroom hengine).1, le_antisymm (hle.trans hlength) (Nat.le_of_not_lt hfull)⟩

theorem holds_stopEngine (hs : EngineHolds s) : EngineHolds s.stopEngine := by
  rcases s.stopEngine_spec with ⟨-, h⟩ | ⟨hne, h⟩ <;> rw [h]
  · exact hs
  · obtain ⟨⟨hin, hpath, hfree, hlength, hread⟩, -⟩ := hs
    have hserving : serving (fun _ => true) s.path = false := by simpa using fun h => hne (hin.mpr h)
    exact holds_stopped (s := { s with path := { s.path with applyWaiting := none } }) ⟨hserving, rfl, fun h => (hfree h).2, hlength⟩

theorem holds_closeDestination (d : Station) (status : Status) (hs : EngineHolds s) : EngineHolds (s.closeDestination d status).1 :=
  holds_dropped (s := ((s.closeLane d status).1.failSlotsFor d status).1) _ (holds_same hs rfl rfl rfl rfl rfl)

theorem holds_noReply (d : Station) (hs : EngineHolds s) : EngineHolds (s.noReply d).1 := by
  rcases s.noReply_cases d with ⟨-, h⟩ | ⟨-, -, h⟩ | ⟨-, -, h⟩ <;> rw [h]
  · exact hs
  · exact holds_closeDestination d _ (holds_same hs rfl rfl rfl rfl rfl)
  · exact holds_same hs rfl rfl rfl rfl rfl

theorem holds_addFault (r : FaultRecord) (hs : EngineHolds s) : EngineHolds (s.addFault r) := by
  rcases s.addFault_cases r with ⟨-, h⟩ | ⟨-, h⟩ <;> rw [h] <;> exact holds_same hs rfl rfl rfl rfl rfl

theorem holds_enterContainment (cause : FaultCause) (addr : Word) (length : Nat) (hs : EngineHolds s) :
    EngineHolds (s.enterContainment cause addr length).1 := by
  have hcontained : EngineHolds (s.setContained cause addr length) := holds_congr hs rfl rfl rfl rfl fun _ => rfl
  exact holds_same (holds_stopEngine hcontained) rfl rfl rfl rfl rfl

theorem holds_eitherOrder {first : Bool} {f g : State → Effect} (hf : ∀ u : State, EngineHolds u → EngineHolds (f u).1)
    (hg : ∀ u : State, EngineHolds u → EngineHolds (g u).1) (hs : EngineHolds s) : EngineHolds (eitherOrder first f g s).1 := by
  cases first with
  | true => exact hg _ (hf _ hs)
  | false => exact hf _ (hg _ hs)

theorem holds_haltedBy (d : Station) (room : Bool) (addr : Word) (length : Nat) (hs : EngineHolds s) :
    EngineHolds (s.haltedBy d room addr length).1 := by
  obtain ⟨laneFirst, slotsFirst, dropFirst, h⟩ := haltedBy_eq s d room addr length
  have hhalting : EngineHolds (halting s d room addr length) := by
    have hfault : ∀ u : State, EngineHolds u → EngineHolds ((u.addFault (implicationRecord d addr length true)).setContained .implicated addr length) :=
      fun u hu => holds_congr (holds_addFault (implicationRecord d addr length true) hu) rfl rfl rfl rfl fun _ => rfl
    exact hfault _ (holds_same hs rfl rfl rfl rfl rfl)
  rw [h, Effect.andThen_fst, Effect.andThen_fst, Effect.andThen_fst]
  refine holds_eitherOrder (fun u hu => holds_dropped (s := u) _ hu) (fun u hu => holds_stopEngine hu) ?_
  refine holds_eitherOrder (fun u hu => holds_same hu rfl rfl rfl rfl rfl) (fun u hu => holds_same hu rfl rfl rfl rfl rfl) ?_
  exact holds_eitherOrder (fun u hu => holds_same hu rfl rfl rfl rfl rfl) (fun u hu => holds_same hu rfl rfl rfl rfl rfl) hhalting

theorem releaseCandidate_returns (s : State) : s.releaseCandidate.1.returns.length = s.returns.length := by
  unfold State.releaseCandidate
  split
  · split <;> rfl
  · simp [State.releaseReturn, State.clearCandidate]
  all_goals rfl

theorem holds_deed (h : Deed s t) (hs : EngineHolds s) : EngineHolds t := by
  have hreleased : ∀ u : State, EngineHolds u → EngineHolds u.releaseReturn := fun u hu =>
    holds_congr hu rfl rfl rfl (by simp [State.releaseReturn]) id
  cases h with
  | release =>
    have hlength := releaseCandidate_returns s
    rw [(State.releaseCandidate_frame s).1]
    exact holds_congr hs rfl rfl rfl hlength id
  | sent =>
    rw [State.broadcastSent_frame]
    exact holds_same hs rfl rfl rfl rfl rfl
  | counted =>
    rcases s.countRound_cases with ⟨-, h⟩ | ⟨-, -, h⟩ | ⟨hlistening, -, h⟩ <;> rw [h]
    · exact hs
    · exact holds_same hs rfl rfl rfl rfl rfl
    · exact holds_congr hs rfl rfl rfl rfl fun h => by rw [hlistening] at h; cases h
  | offline hnone hstation =>
    exact holds_congr hs rfl rfl rfl (by simp [State.goOffline, State.releaseReturn, State.endRound, State.releaseInFlight]) fun h => by
      rcases hstation with h' | h' <;> rw [h'] at h <;> cases h
  | halts d =>
    rcases s.peerHalts_cases d with ⟨-, h⟩ | ⟨-, -, h, -⟩ <;> rw [h]
    · exact hs
    · exact holds_closeDestination d _ (holds_same hs rfl rfl rfl rfl rfl)
  | restarts d =>
    unfold State.peerRestarts
    dsimp only
    split
    · exact hs
    · split <;> exact holds_same hs rfl rfl rfl rfl rfl
  | fault r => exact holds_addFault r hs
  | contained cause addr length => exact holds_enterContainment cause addr length hs
  | haltedBy d room addr length => exact holds_haltedBy d room addr length hs
  | busy d =>
    unfold State.replyBusy
    dsimp only
    split <;> exact holds_same hs rfl rfl rfl rfl rfl
  | taken x =>
    unfold State.entryTaken
    split <;> exact holds_same hs rfl rfl rfl rfl rfl
  | silent d => exact holds_noReply d hs
  | returnLeaves => exact holds_dropped _ hs
  | returnSilent d =>
    have hsilent := holds_noReply d hs
    simp only [State.settleReturn, Effect.andThen_fst, quiet_fst]
    split
    · exact holds_dropped _ hsilent
    · exact hreleased _ hsilent
  | _ => exact holds_same hs rfl rfl rfl rfl rfl

theorem holds_deeds (h : Deeds s t) (hs : EngineHolds s) : EngineHolds t := keeps_of_deeds (fun _ _ => holds_deed) h hs

/-! ## The path falls FREE -/

/-- The path of a landing or an abandoned access falls FREE and starts the engine's request, a landing, or nothing (R112 to R114). -/
theorem holds_pathFallsFree (hs : EngineHolds s) (hserving : serving (fun _ => true) s.path = false) : EngineHolds s.pathFallsFree := by
  obtain ⟨⟨hin, hpath, hfree, hlength, hread⟩, hidle, hroom, hwait, haccess⟩ := hs
  have hnot : s.engine ≠ .inAccess := fun h => by simp [hin.mp h] at hserving
  rcases s.pathFallsFree_cases with ⟨hnone, hlandings, h⟩ | ⟨a, hsome, -, h⟩ | ⟨k, b, rest, hlandings, -, h⟩ <;> rw [h]
  · have hengine : s.engine ≠ .pathWait := fun h => by
      have hsome := hpath.mp h
      rw [hnone] at hsome
      cases hsome
    refine ⟨agrees_of_ready (s := { s with path := { s.path with state := .free } }) ⟨rfl, hnone, fun _ => hlandings, hlength⟩ hnot hengine, hidle, hroom,
      fun h => absurd h hengine, fun h => absurd h hnot⟩
  · have hengine : s.engine = .pathWait := hpath.mpr (by rw [hsome]; rfl)
    have hhead : headAccess s = some a := by rw [← (hwait hengine).2, hsome]
    refine ⟨⟨by simp [State.startApply, serving], ⟨fun h => (by cases h), fun h => (by cases h)⟩, fun h => (by cases h), hlength, fun h => ?_⟩, fun h => (by cases h),
      fun h => (by cases h), fun h => (by cases h), fun _ => ⟨a, hhead, rfl⟩⟩
    rcases h with h | h
    · exact hread (.inr (by rw [hsome]; exact h))
    · cases h
  · refine ⟨⟨iff_of_false hnot (by simp [State.startLanding, serving]), hpath, fun h => (by cases h), hlength, fun h => ?_⟩, hidle, hroom, hwait,
      fun h => absurd h hnot⟩
    rcases h with h | h
    · cases h
    · exact hread (.inr h)

/-- After an access of the engine's own nothing of the engine waits, and the path starts a landing at most (R112). -/
theorem ready_pathFallsFree {a : Access} (hs : EngineAgrees s) (hstate : s.path.state = .busy .apply a) : Ready s.pathFallsFree := by
  obtain ⟨hin, hpath, hfree, hlength, hread⟩ := hs
  have hengine : s.engine = .inAccess := hin.mpr (by simp [serving, hstate])
  have hnone : s.path.applyWaiting = none := by
    cases h : s.path.applyWaiting with
    | none => rfl
    | some b =>
      have := hpath.mpr (by rw [h]; rfl)
      rw [hengine] at this
      cases this
  rcases s.pathFallsFree_cases with ⟨-, hlandings, h⟩ | ⟨b, hsome, -, -⟩ | ⟨k, b, rest, hlandings, -, h⟩
  · rw [h]
    exact ⟨rfl, hnone, fun _ => hlandings, hlength⟩
  · rw [hnone] at hsome
    cases hsome
  · rw [h]
    exact ⟨rfl, hnone, fun h => (by cases h), hlength⟩

/-! ## The end of an access of the engine's -/

theorem ready_stopEngine (hs : Ready s) : Ready s.stopEngine := by
  rcases s.stopEngine_spec with ⟨-, h⟩ | ⟨-, h⟩ <;> rw [h]
  · exact hs
  · exact ⟨hs.1, rfl, hs.2.2.1, hs.2.2.2⟩

theorem ready_addFault (r : FaultRecord) (hs : Ready s) : Ready (s.addFault r) := by
  rcases s.addFault_cases r with ⟨-, h⟩ | ⟨-, h⟩ <;> rw [h] <;> exact hs

/-- An apply fault at an engine that carries nothing (R130 to R135). -/
theorem ready_applyFault (x : InboundEntry) (hs : Ready s) : Ready (s.applyFault x).1 := by
  have hrecord : ∀ halted, Ready (s.recordFault x halted).1 := fun halted => ready_addFault _ hs
  unfold State.applyFault
  split
  · split
    · exact hrecord true
    · exact hrecord false
  · split
    · exact hrecord false
    · split
      · exact ready_stopEngine (s := (s.recordFault x true).1.setContained .applyFault x.range.1 x.range.2) (hrecord true)
      · exact hrecord false

/-- An apply fault at an engine that has stopped (R132 to R135). -/
theorem holds_applyFault (x : InboundEntry) (hs : EngineHolds s) : EngineHolds (s.applyFault x).1 := by
  have hrecord : ∀ halted, EngineHolds (s.recordFault x halted).1 := fun halted => holds_addFault _ hs
  unfold State.applyFault
  split
  · split
    · exact holds_same (hrecord true) rfl rfl rfl rfl rfl
    · exact hrecord false
  · split
    · exact hrecord false
    · split
      · exact holds_enterContainment _ _ _ (hrecord true)
      · exact holds_same (hrecord false) rfl rfl rfl rfl rfl

theorem holds_postEnds (x : InboundEntry) (ending : AccessEnd) (hs : Ready s) : EngineHolds (s.postEnds x ending).1 := by
  have hnext : ∀ u : State, Ready u → EngineHolds u.dropHead.engineGoesOn.1 := fun u hu => holds_engineGoesOn (s := u.dropHead) hu
  cases ending with
  | ok => exact hnext s hs
  | error =>
    simp only [State.postEnds]
    split
    · exact holds_applyFault x (holds_stopped hs)
    · exact hnext _ (ready_applyFault x hs)

/-- The end of a read: there is a place for its RETURN (R101, R106). -/
theorem holds_fetchEnds (x : InboundEntry) (ending : ReadEnd) (hs : Ready s) (hroom : s.returns.length < Config.returnCapacity) :
    EngineHolds (s.fetchEnds x ending).1 := by
  unfold State.fetchEnds
  split
  · rename_i length tag _
    refine holds_engineGoesOn ?_
    rcases s.dropHead.joinReturn_cases x.source tag (readResult length ending) with ⟨-, h⟩ | ⟨-, -, h⟩ <;> rw [h]
    · exact hs
    · obtain ⟨hserving, hnone, hfree, -⟩ := hs
      refine ⟨hserving, hnone, hfree, ?_⟩
      rw [List.length_append, List.length_singleton]
      exact hroom
  · exact holds_engineGoesOn (s := s.dropHead) hs

/-! ## The addressed station's part of an answer close -/

/-- The head of the inbound queue stays where it is committed, and what is left of the others is committed too (R98). -/
theorem headAccess_settleProvisional {a : Access} (taken : Bool) (h : headAccess s = some a) : headAccess (s.settleProvisional taken) = some a := by
  obtain ⟨x, rest, hinbound, hcommitted, -⟩ := committed_of_headAccess h
  have hhead : ∃ rest', (s.settleProvisional taken).inbound = x :: rest' := by
    obtain ⟨op, source, provisional⟩ := x
    cases hcommitted
    cases taken <;> simp [State.settleProvisional, hinbound]
  obtain ⟨rest', hinbound'⟩ := hhead
  rw [headAccess, hinbound] at h
  rw [headAccess, hinbound']
  exact h

theorem holds_woken (taken : Bool) (hs : EngineHolds s) : EngineHolds (s.settleProvisional taken).wakeEngine.1 := by
  obtain ⟨hagrees, -, hroom, hwait, haccess⟩ := hs
  refine holds_wakeEngine hagrees fun h => ⟨fun hidle => .inl ?_, fun hengine => ?_, fun hengine => ?_, fun hengine => ?_⟩
  · exact h.resolve_left (fun hne => hne hidle)
  · obtain ⟨hany, hfull⟩ := hroom hengine
    obtain ⟨a, ha, hread⟩ := (Option.any_eq_true _ _).mp hany
    exact ⟨by rw [headAccess_settleProvisional taken ha]; exact hread, hfull⟩
  · obtain ⟨hsome, hwaiting⟩ := hwait hengine
    obtain ⟨a, ha⟩ := Option.isSome_iff_exists.mp hsome
    rw [headAccess_settleProvisional taken ha]
    exact ⟨rfl, hwaiting.trans ha⟩
  · obtain ⟨a, ha, hstate⟩ := haccess hengine
    exact ⟨a, headAccess_settleProvisional taken ha, hstate⟩

/-- A landing that starts on a FREE path, or waits behind what the path carries (R83, R112). -/
theorem holds_askLanding (k : SlotNo) (a : Access) (hs : EngineHolds s) : EngineHolds (s.askLanding k a) := by
  obtain ⟨⟨hin, hpath, hfree, hlength, hread⟩, hidle, hroom, hwait, haccess⟩ := hs
  rcases s.askLanding_cases k a with ⟨hstate, h⟩ | ⟨hstate, h⟩ <;> rw [h]
  · have hserving : serving (fun _ => true) s.path = false := by simp [serving, hstate]
    have hnot : s.engine ≠ .inAccess := fun h => by simp [hin.mp h] at hserving
    refine ⟨⟨iff_of_false hnot (by simp [serving]), hpath, fun h => (by cases h), hlength, fun h => ?_⟩, hidle, hroom, hwait, fun h => absurd h hnot⟩
    rcases h with h | h
    · cases h
    · exact hread (.inr h)
  · exact ⟨⟨hin, hpath, fun h => absurd h hstate, hlength, hread⟩, hidle, hroom, hwait, haccess⟩

theorem holds_decideSlot (k : SlotNo) (taken : Bool) (hs : EngineHolds s) : EngineHolds (s.decideSlot k taken).1 := by
  have hset : ∀ f, EngineHolds (s.setSlot k f) := fun f => holds_same hs rfl rfl rfl rfl rfl
  unfold State.decideSlot
  split
  · exact hset _
  split
  · split
    · exact holds_askLanding k _ (hset _)
    · exact hset _
  split
  · exact hset _
  · exact hset _

theorem holds_closing (o : AnswerOutcome) (hround : RoundAgrees s) (hs : EngineHolds s) : EngineHolds (closing s o).1 := by
  have hsettled : EngineHolds (s.settleCandidate o).1 := holds_deeds (settleCandidate_deeds hround o) hs
  have hwoken := holds_woken (o == .good .taken) hsettled
  have hheld : EngineHolds ((s.settleCandidate o).1.settleHolder (o == .good .taken)).1 := by
    rw [State.settleHolder, Effect.andThen_fst]
    split
    · exact holds_decideSlot _ _ hwoken
    · exact hwoken
  rw [Holding.closing_fst]
  exact holds_deed .counted (holds_same hheld rfl rfl rfl rfl rfl)

/-! ## Every command -/

theorem holds_done (h : EngineHolds e.1) : EngineHolds e.done := h

theorem holds_port {port : NodePort} (h : EngineHolds s) : EngineHolds { s with port := port } := h

theorem holds_freeze (hs : EngineHolds s) : EngineHolds (s.freeze s.offer) := by
  have h := freeze_offer s
  generalize s.freeze s.offer = t at h ⊢
  cases h with
  | ret older younger r _ hsplit => exact holds_congr hs rfl rfl rfl (by rw [hsplit]; simp [State.call]) id
  | _ => exact holds_same hs rfl rfl rfl rfl rfl

/-- A path after a reset, with an IDLE engine, no inbound entry and no RETURN (R103, R114, R151). -/
theorem holds_of_reset (hengine : s.engine = .idle) (hserving : serving (fun _ => true) s.path = false) (hwaiting : s.path.applyWaiting = none)
    (hlandings : s.path.landingWaiting = []) (hinbound : s.inbound = []) (hreturns : s.returns = []) : EngineHolds s := by
  have hready : Ready s := ⟨hserving, hwaiting, fun _ => hlandings, by simp [hreturns]⟩
  refine ⟨agrees_of_ready hready (by simp [hengine]) (by simp [hengine]), fun _ => .inr (by simp [hinbound]), ?_, ?_, ?_⟩ <;>
  · rw [hengine]
    exact fun h => by cases h

theorem carries_abandon (m : MemPath) : carries m.abandon.state = false := by cases h : m.state <;> simp [MemPath.abandon, h, carries]

theorem serving_of_not_carries {m : MemPath} {p : Access → Bool} (h : carries m.state = false) : serving p m = false := by
  cases hstate : m.state <;> simp_all [carries, serving]

theorem serving_abandon (m : MemPath) (user : ServedUser) : serving (fun _ => true) { m.abandon with lastServed := user } = false :=
  serving_of_not_carries (carries_abandon m)

/-- The three statements at once. -/
def Kept (s : State) : Prop := EngineAgrees s ∧ HeadAgrees s ∧ HeldHolds s

theorem Kept.of_holds (hheld : s.held = false) (h : EngineHolds s) : Kept s :=
  ⟨h.1, fun _ => h.2, fun h' => by rw [hheld] at h'; cases h'⟩

theorem Kept.holds (h : Kept s) (hheld : s.held = false) : EngineHolds s := ⟨h.1, h.2.1 hheld⟩

/-- A station that is held in reset, or that holds nothing in its engine and its path. -/
theorem kept_asserted (hs : Kept s) : Kept (asserted s) := by
  obtain ⟨hagrees, -, hholds⟩ := hs
  have hquiet : carries (asserted s).path.state = false ∧ (asserted s).path.applyWaiting = none ∧ (asserted s).path.landingWaiting = [] := by
    change carries (if s.held then s.path else s.path.abandon).state = false ∧ (if s.held then s.path else s.path.abandon).applyWaiting = none ∧
      (if s.held then s.path else s.path.abandon).landingWaiting = []
    split
    · exact (hholds ‹_›).2
    · exact ⟨carries_abandon _, rfl, rfl⟩
  obtain ⟨hcarries, hwaiting, hlandings⟩ := hquiet
  have hlength : (asserted s).returns.length ≤ Config.returnCapacity := by
    simpa [asserted, State.releaseReturn, State.endRound, State.releaseInFlight] using hagrees.2.2.2.1
  refine ⟨agrees_of_ready ⟨serving_of_not_carries hcarries, hwaiting, fun _ => hlandings, hlength⟩ (by simp [asserted]) (by simp [asserted]),
    fun h => (by cases h), fun _ => ⟨rfl, hcarries, hwaiting, hlandings⟩⟩

/-- An abandoned access ends, at a station that is held in reset or not (R114). -/
theorem kept_frees {a : Access} (hstate : s.path.state = .abandoned a) (hs : Kept s) : Kept s.pathFallsFree := by
  have hserving : serving (fun _ => true) s.path = false := by simp [serving, hstate]
  have hframe : s.pathFallsFree.held = s.held := by rw [State.pathFallsFree_frame]
  cases hheld : s.held with
  | false => exact .of_holds (hframe.trans hheld) (holds_pathFallsFree (hs.holds hheld) hserving)
  | true =>
    obtain ⟨hagrees, -, hholds⟩ := hs
    obtain ⟨hidle, -, hwaiting, hlandings⟩ := hholds hheld
    rw [s.pathFallsFree_quiet hwaiting hlandings]
    refine ⟨agrees_of_ready (s := { s with path := { s.path with state := .free } }) ⟨rfl, hwaiting, fun _ => hlandings, hagrees.2.2.2.1⟩ ?_ ?_,
      fun h => ?_, fun _ => ⟨hidle, rfl, hwaiting, hlandings⟩⟩
    · rw [hidle]; simp
    · rw [hidle]; simp
    · rw [show _ = s.held from rfl, hheld] at h
      cases h

theorem holds_takesEntry {x : InboundEntry} (hx : x.provisional = true) (hs : EngineHolds s) : EngineHolds { s with inbound := s.inbound ++ [x] } := by
  obtain ⟨hagrees, hidle, hroom, hwait, haccess⟩ := hs
  have hhead : headAccess { s with inbound := s.inbound ++ [x] } = headAccess s := by
    cases h : s.inbound with
    | nil =>
      obtain ⟨op, source, provisional⟩ := x
      cases hx
      simp [headAccess, h]
    | cons y rest => simp [headAccess, h]
  refine ⟨hagrees, fun h => (hidle h).imp_right fun hall => ?_, ?_, ?_, ?_⟩
  · cases hinbound : s.inbound with
    | nil => simpa [hinbound] using hx
    | cons y rest => simpa [hinbound] using hall
  · rw [hhead]; exact hroom
  · rw [hhead]; exact hwait
  · rw [hhead]; exact haccess

theorem done_held (e : Effect) : e.done.held = e.1.held := rfl

/-- A command at a station that is not held in reset, but the assertion of the pin, leaves it not held. -/
theorem happens_held {c : Instr} (h : Happens s c t) (hheld : s.held = false) : t.held = false ∨ t = asserted s := by
  cases h with
  | asserts => exact .inr rfl
  | releases => exact .inl rfl
  | marks =>
    have h := freeze_offer s
    generalize s.freeze s.offer = t at h ⊢
    cases h <;> exact .inl hheld
  | yields picture => exact .inl ((done_held _).trans ((chain_held (yields_chain picture _)).trans hheld))
  | idles =>
    rw [countRound_frame]
    exact .inl hheld
  | outcome settle sent report _ hpart => exact .inl ((done_held _).trans ((counted_held (parcelOutcome_counted settle sent report hpart)).trans hheld))
  | closes ask driven o => exact .inl ((done_held _).trans ((counted_held (closing_counted o)).trans hheld))
  | expires k => exact .inl ((done_held _).trans ((chain_held (expires_chain s k)).trans hheld))
  | writes x rest a ending _ hstate => exact .inl ((done_held _).trans ((chain_held (writes_chain x ending hstate)).trans hheld))
  | reads x rest a ending _ hstate => exact .inl ((done_held _).trans ((chain_held (reads_chain x ending hstate)).trans hheld))
  | lands =>
    rw [State.pathFallsFree_frame]
    exact .inl hheld
  | frees =>
    rw [State.pathFallsFree_frame]
    exact .inl hheld
  | masks mask => exact .inl ((done_held (s.applyMask mask)).trans hheld)
  | pops record rest => cases record <;> exact .inl hheld
  | _ => exact .inl hheld

/-- A command at a station that is not held in reset, but the assertion of the pin and the end of an abandoned access. -/
theorem holds_happens {c : Instr} (h : Happens s c t) (hheld : t.held = false) (hround : RoundAgrees s) (hs : EngineHolds s) :
    EngineHolds t := by
  have hcount : ∀ u : State, EngineHolds u → EngineHolds u.countRound := fun u hu => holds_deed .counted hu
  cases h with
  | asserts => cases hheld
  | releases straps => exact holds_of_reset rfl (serving_abandon _ _) rfl rfl rfl rfl
  | restarts port => exact holds_of_reset rfl (serving_abandon _ _) rfl rfl rfl rfl
  | frees a hstate => exact holds_pathFallsFree hs (by simp [serving, hstate])
  | marks => exact holds_freeze hs
  | yields picture => exact holds_done (holds_deeds (yields_deeds picture) hs)
  | idles => exact hcount _ (holds_same hs rfl rfl rfl rfl rfl)
  | outcome settle sent report _ hpart hhears => exact holds_done (holds_deeds (parcelOutcome_deeds hround hpart report hhears) hs)
  | takesEntry asked driven x _ _ _ _ _ hx => exact holds_same (holds_takesEntry hx hs) rfl rfl rfl rfl rfl
  | closes ask driven o => exact holds_done (holds_closing o hround hs)
  | expires k =>
    refine holds_done ?_
    unfold State.expireFetch
    split
    · exact hs
    split
    · exact holds_same hs rfl rfl rfl rfl rfl
    split
    · exact holds_same hs rfl rfl rfl rfl rfl
    · exact hs
  | writes x rest a ending _ hstate => exact holds_done (holds_postEnds x ending (ready_pathFallsFree hs.1 hstate))
  | reads x rest a ending _ hstate hread =>
    have hroom : s.pathFallsFree.returns.length < Config.returnCapacity := by
      rw [State.pathFallsFree_frame]
      exact hs.1.2.2.2.2 (.inl (by simpa [serving, hstate] using hread))
    exact holds_done (holds_fetchEnds x ending (ready_pathFallsFree hs.1 hstate) hroom)
  | lands k a status _ hstate =>
    exact holds_done (holds_same (holds_pathFallsFree hs (by simp [serving, hstate])) rfl rfl rfl rfl rfl)
  | joins config _ _ hunstarted => exact holds_congr hs rfl rfl rfl rfl fun h => by rw [hunstarted] at h; cases h
  | masks mask =>
    have hmasked : EngineHolds (s.applyMask mask).1 := by
      rw [State.applyMask]
      exact hs
    exact holds_port (holds_done hmasked)
  | pops record rest => cases record <;> exact hs
  | _ => exact holds_same hs rfl rfl rfl rfl rfl

theorem kept_happens {c : Instr} (h : Happens s c t) (hround : RoundAgrees s) (hs : Kept s) : Kept t := by
  cases hheld : s.held with
  | false =>
    rcases happens_held h hheld with ht | rfl
    · exact .of_holds ht (holds_happens h ht hround (hs.holds hheld))
    · exact kept_asserted hs
  | true =>
    have hpart : s.takesPart = false := by simp [State.takesPart, hheld]
    cases h with
    | nothing => exact hs
    | port => exact hs
    | asserts => exact kept_asserted hs
    | releases straps => exact .of_holds rfl (holds_of_reset rfl (serving_abandon _ _) rfl rfl rfl rfl)
    | frees a hstate => exact kept_frees hstate hs
    | _ => simp_all

/-- Settles O14: the operations that make up an event each keep the engine, the path, the return list and the head in agreement, and a station held
in reset only sees an abandoned access end. -/
theorem engineKept : Obligations.EngineKept := by
  intro s t hround _ hheld hengine hhead hstep
  rcases step_happens hstep with rfl | ⟨c, rest, h⟩
  · exact ⟨hengine, hhead, hheld⟩
  · exact kept_happens (s := { s with pending := rest }) h hround ⟨hengine, hhead, hheld⟩

end Sys2Proof.Engine
end

section
/-! Every command keeps the containment flag, its cause, the station state and the pending CONTAIN in agreement, and a CONTAINED station holds what
containment leaves it (R54, R89, R104, R128, R131, R135, R137, R142). -/

namespace Sys2Proof.Containment

open Sys2Proof.Machine Sys2Proof.Safety Sys2Proof.Events Sys2Proof.Acts Sys2Proof.Selector Sys2Proof.Rounds Sys2Proof.Walk Sys2Proof.Controller
  Sys2Proof.Engine Sys2Proof.RoundLaw

variable {s t : State} {e : Effect}

/-! ## The containment unit -/

/-- The pending CONTAIN is HALTED exactly at a CONTAINED station, and late sources are kept only while it is frozen (R130 to R132, R137). -/
def PendingLaw (s : State) : Prop :=
  (∀ p ∈ s.contain.pendingContain, p.mode = .halted ↔ s.station = .contained) ∧ (s.contain.late ≠ 0 → s.containFrozen = true)

/-- Both laws of the containment unit. -/
def Flagged (s : State) : Prop := ContainmentAgrees s ∧ PendingLaw s

theorem flagged_congr (hs : Flagged s) (hstation : t.station = s.station) (hcontain : t.contain = s.contain)
    (hcandidate : t.span.candidate = s.span.candidate) : Flagged t := by
  unfold Flagged ContainmentAgrees PendingLaw State.containFrozen at hs ⊢
  rwa [hstation, hcontain, hcandidate]

/-- The station moves between states that are not CONTAINED and have no flag. -/
theorem flagged_moves (hs : Flagged s) (hopen : s.station ≠ .contained) (hflag : s.contain.flag = false) (hopen' : t.station ≠ .contained)
    (hcontain : t.contain = s.contain) (hcandidate : t.span.candidate = s.span.candidate) : Flagged t := by
  obtain ⟨⟨-, -, hcause⟩, hpending, hlate⟩ := hs
  unfold Flagged ContainmentAgrees PendingLaw State.containFrozen
  rw [hcontain, hcandidate]
  exact ⟨⟨fun h => absurd h hopen', fun h => (by rw [hflag] at h; cases h), hcause⟩,
    fun p hp => iff_of_false (fun h => hopen ((hpending p hp).mp h)) hopen', hlate⟩

theorem flag_of_joined (hs : Flagged s) (hcontained : s.station ≠ .contained) (hoffline : s.station ≠ .offline) : s.contain.flag = false := by
  cases h : s.contain.flag with
  | false => rfl
  | true => exact absurd (hs.1.2.1 h) (not_or.mpr ⟨hcontained, hoffline⟩)

/-- A CONTAIN that is not frozen has no late sources (R131). -/
theorem late_of_not_frozen (hs : Flagged s) (h : s.containFrozen = false) : s.contain.late = 0 := by
  by_contra hlate
  rw [hs.2.2 hlate] at h
  cases h

/-- The candidate changes while there are no late sources. -/
theorem flagged_candidate (hs : Flagged s) (hlate : s.contain.late = 0) (hstation : t.station = s.station) (hcontain : t.contain = s.contain) :
    Flagged t := by
  obtain ⟨hagrees, hpending, -⟩ := hs
  unfold Flagged ContainmentAgrees PendingLaw at *
  rw [hstation, hcontain]
  exact ⟨hagrees, hpending, fun h => absurd hlate h⟩

theorem flagged_addFault (r : FaultRecord) (hs : Flagged s) : Flagged (s.addFault r) := by
  rcases s.addFault_cases r with ⟨-, h⟩ | ⟨-, h⟩ <;> rw [h] <;> exact hs

/-- Containment entry sets the flag with its cause, and a HALTED CONTAIN is pending (R135, R137). -/
theorem flagged_setContained (cause : FaultCause) (addr : Word) (length : Nat) (s : State) : Flagged (s.setContained cause addr length) := by
  refine ⟨⟨fun _ => rfl, fun _ => .inl rfl, rfl⟩, fun p hp => ?_, fun h => absurd rfl h⟩
  cases hp
  exact iff_of_true rfl rfl

theorem flagged_enterContainment (cause : FaultCause) (addr : Word) (length : Nat) (s : State) :
    Flagged (s.enterContainment cause addr length).1 := by
  rw [State.enterContainment_frame]
  exact flagged_congr (flagged_setContained cause addr length s) rfl rfl rfl

/-- A CONTAIN that was sent leaves what it leaves pending in its mode (R131, R137). -/
theorem sent_mode {c : ContainUnit} {mode : ContainMode} {p : PendingContain} (h : p ∈ (c.sent mode).pendingContain) :
    ∃ q ∈ c.pendingContain, p.mode = q.mode := by
  unfold ContainUnit.sent at h
  split at h
  · rename_i hnone
    rw [show _ = c.pendingContain from rfl, hnone] at h
    cases h
  · rename_i q hq
    split at h
    · exact ⟨p, h, rfl⟩
    · split at h
      · cases h
        exact ⟨q, hq, rfl⟩
      · cases h

/-! ## What a CONTAINED station holds -/

/-- No entry but the one in flight, no AWAITING slot, and an engine that is STOPPED or IN_ACCESS with no request waiting (R54, R89, R104). -/
def Stilled (s : State) : Prop :=
  (∀ x ∈ s.sendQueue, x.inFlight = true) ∧ (∀ i, (s.slot i).state ≠ .awaiting) ∧ (s.engine = .inAccess ∨ s.engine = .stopped) ∧
    s.path.applyWaiting = none

/-- The engine is in PATH_WAIT exactly while its request waits at the path (R112). -/
def Waits (s : State) : Prop := s.engine = .pathWait ↔ s.path.applyWaiting.isSome = true

/-- What a CONTAINED station holds, and an engine that is in PATH_WAIT exactly while its request waits. -/
def Quieted (s : State) : Prop := (s.station = .contained → Stilled s) ∧ Waits s

theorem containedHolds_iff (s : State) : ContainedHolds s ↔ (s.held = false → s.station = .contained → Stilled s) := Iff.rfl

theorem stilled_of {u : State} (hs : Stilled s) (hsend : ∀ x ∈ u.sendQueue, x ∈ s.sendQueue)
    (hslots : ∀ i, (u.slot i).state = .awaiting → (s.slot i).state = .awaiting) (hengine : u.engine = s.engine)
    (hpath : u.path.applyWaiting = s.path.applyWaiting) : Stilled u :=
  ⟨fun x hx => hs.1 x (hsend x hx), fun i hi => hs.2.1 i (hslots i hi), hengine ▸ hs.2.2.1, hpath.trans hs.2.2.2⟩

theorem waits_congr (hs : Waits s) (hengine : t.engine = s.engine) (hpath : t.path.applyWaiting = s.path.applyWaiting) : Waits t := by
  unfold Waits
  rwa [hengine, hpath]

/-- A change that leaves the engine and its request, adds no entry and makes no slot AWAITING. -/
theorem quieted_of (hs : Quieted s) (hstation : t.station = .contained → s.station = .contained) (hsend : ∀ x ∈ t.sendQueue, x ∈ s.sendQueue)
    (hslots : ∀ i, (t.slot i).state = .awaiting → (s.slot i).state = .awaiting) (hengine : t.engine = s.engine)
    (hpath : t.path.applyWaiting = s.path.applyWaiting) : Quieted t :=
  ⟨fun h => stilled_of (hs.1 (hstation h)) hsend hslots hengine hpath, waits_congr hs.2 hengine hpath⟩

/-- A change of a station that is not CONTAINED. -/
theorem quieted_open (hs : Quieted s) (hopen : t.station ≠ .contained) (hengine : t.engine = s.engine)
    (hpath : t.path.applyWaiting = s.path.applyWaiting) : Quieted t :=
  ⟨fun h => absurd h hopen, waits_congr hs.2 hengine hpath⟩

theorem quieted_same (hs : Quieted s) (hstation : t.station = s.station) (hsend : t.sendQueue = s.sendQueue) (hslots : t.slots = s.slots)
    (hengine : t.engine = s.engine) (hpath : t.path = s.path) : Quieted t :=
  quieted_of hs (fun h => hstation ▸ h) (fun x hx => hsend ▸ hx) (fun i hi => by rwa [State.slot, hslots] at hi) hengine (hpath ▸ rfl)

/-- An engine that asks for an access on a FREE path is served, and has its request wait otherwise. -/
theorem askApply_waits (a : Access) (hnone : s.path.applyWaiting = none) : Waits (s.askApply a) := by
  rcases s.askApply_cases a with ⟨-, h⟩ | ⟨-, h⟩ <;> rw [h]
  · exact iff_of_false (by simp) (by simp [hnone])
  · exact iff_of_true rfl rfl

/-- An engine in ROOM_WAIT that goes on (R103). -/
theorem waits_leaveRoomWait (hs : Waits s) : Waits s.leaveRoomWait := by
  unfold State.leaveRoomWait
  split
  · rename_i h
    have hnone : s.path.applyWaiting = none := by simpa [Waits, h.1] using hs
    rcases s.applyHead_cases with h | ⟨x, rest, addr, data, -, -, -, h⟩ | ⟨x, rest, addr, length, tag, -, -, -, ⟨-, h⟩ | ⟨-, h⟩⟩ <;> rw [h]
    · exact iff_of_false (by simp) (by simp [hnone])
    · exact askApply_waits _ hnone
    · exact askApply_waits _ hnone
    · exact iff_of_false (by simp) (by simp [hnone])
  · exact hs

/-- A CONTAINED station has no engine in ROOM_WAIT. -/
theorem quieted_leaveRoomWait (hs : Quieted s) : Quieted s.leaveRoomWait := by
  refine ⟨fun h => ?_, waits_leaveRoomWait hs.2⟩
  have hcontained : s.station = .contained := by
    rw [State.leaveRoomWait_frame] at h
    exact h
  have hstilled := hs.1 hcontained
  rwa [s.leaveRoomWait_of_ne (by rcases hstilled.2.2.1 with h | h <;> rw [h] <;> simp)]

theorem quieted_dropped (keep : ReturnEntry → Bool) (hs : Quieted s) : Quieted { s with returns := s.returns.filter keep }.leaveRoomWait :=
  quieted_leaveRoomWait (s := { s with returns := s.returns.filter keep }) hs

theorem slot_failAwaiting {which : FetchSlot → Bool} {status : Status} {i : SlotNo}
    (h : ((s.failAwaiting which status).1.slot i).state = .awaiting) : (s.slot i).state = .awaiting ∧ which (s.slot i) = false := by
  rw [State.failAwaiting_slot] at h
  split at h
  · cases h
  · rename_i hstays
    exact ⟨h, by simpa [h] using hstays⟩

theorem quieted_failAwaiting (which : FetchSlot → Bool) (status : Status) (hs : Quieted s) : Quieted (s.failAwaiting which status).1 :=
  quieted_of hs id (fun _ => id) (fun _ hi => (slot_failAwaiting hi).1) rfl rfl

theorem quieted_closeDestination (d : Station) (status : Status) (hs : Quieted s) : Quieted (s.closeDestination d status).1 := by
  have hlane : Quieted (s.closeLane d status).1 := quieted_of hs id (fun x hx => List.mem_of_mem_filter hx) (fun _ => id) rfl rfl
  have hclosed := quieted_failAwaiting (fun f => f.dest == d) status hlane
  exact quieted_dropped _ hclosed

theorem quieted_noReply (d : Station) (hs : Quieted s) : Quieted (s.noReply d).1 := by
  rcases s.noReply_cases d with ⟨-, h⟩ | ⟨-, -, h⟩ | ⟨-, -, h⟩ <;> rw [h]
  · exact hs
  · exact quieted_closeDestination d _ (quieted_same hs rfl rfl rfl rfl rfl)
  · exact quieted_same hs rfl rfl rfl rfl rfl

/-- The engine at containment entry (R104). -/
theorem stopEngine_stilled (hwait : Waits s) :
    (s.stopEngine.engine = .inAccess ∨ s.stopEngine.engine = .stopped) ∧ s.stopEngine.path.applyWaiting = none := by
  rcases s.stopEngine_spec with ⟨haccess, h⟩ | ⟨-, h⟩ <;> rw [h]
  · exact ⟨.inl haccess, by simpa [Waits, haccess] using hwait⟩
  · exact ⟨.inr rfl, rfl⟩

theorem quieted_of_stilled (hs : Stilled s) : Quieted s := by
  refine ⟨fun _ => hs, iff_of_false ?_ (by simp [hs.2.2.2])⟩
  rcases hs.2.2.1 with h | h <;> rw [h] <;> simp

theorem flushSlots_slot {i : SlotNo} : (s.flushSlots.1.slot i).state ≠ .awaiting := fun hi => by
  cases (slot_failAwaiting hi).2

theorem quieted_enterContainment (cause : FaultCause) (addr : Word) (length : Nat) (hwait : Waits s) : Quieted (s.enterContainment cause addr length).1 := by
  obtain ⟨hengine, hnone⟩ := stopEngine_stilled (s := s.setContained cause addr length) hwait
  rw [State.enterContainment, Effect.andThen_fst]
  exact quieted_of_stilled ⟨fun _ hx => (List.mem_filter.mp hx).2, fun _ => flushSlots_slot, hengine, hnone⟩

theorem quieted_addFault (r : FaultRecord) (hs : Quieted s) : Quieted (s.addFault r) := by
  rcases s.addFault_cases r with ⟨-, h⟩ | ⟨-, h⟩ <;> rw [h] <;> exact quieted_same hs rfl rfl rfl rfl rfl

/-! ## A CONTAIN that closes its sender and contains this station -/

/-- Two operations in either order, of which the second brings about what the first keeps. -/
theorem eitherOrder_brings {P Q : State → Prop} {first : Bool} {f g : State → Effect} (hf : ∀ u, P u → P (f u).1) (hg : ∀ u, P u → Q (g u).1)
    (hfg : ∀ u, Q u → Q (f u).1) (hs : P s) : Q (eitherOrder first f g s).1 := by
  cases first with
  | true => exact hg _ (hf _ hs)
  | false => exact hfg _ (hg _ hs)

/-- The send queue, the fetch table and the engine each end as containment leaves them, whichever of the two comes first (R54, R89, R104). -/
theorem quieted_haltedBy (d : Station) (room : Bool) (addr : Word) (length : Nat) (hwait : Waits s) : Quieted (s.haltedBy d room addr length).1 := by
  obtain ⟨laneFirst, slotsFirst, dropFirst, h⟩ := haltedBy_eq s d room addr length
  have hhalting : Waits (halting s d room addr length) := by
    have hfault : ∀ u : State, Waits u → Waits ((u.addFault (implicationRecord d addr length true)).setContained .implicated addr length) := by
      intro u hu
      rcases u.addFault_cases (implicationRecord d addr length true) with ⟨-, h⟩ | ⟨-, h⟩ <;> rw [h] <;> exact hu
    exact hfault _ hwait
  rw [h, Effect.andThen_fst, Effect.andThen_fst, Effect.andThen_fst]
  have hlanes := eitherOrder_brings (first := laneFirst) (f := fun u => u.closeLane d .destContained) (g := State.flushSends) (P := Waits)
    (Q := fun u => Waits u ∧ ∀ x ∈ u.sendQueue, x.inFlight = true) (fun _ hu => hu) (fun _ hu => ⟨hu, fun _ hx => (List.mem_filter.mp hx).2⟩)
    (fun _ hu => ⟨hu.1, fun x hx => hu.2 x (List.mem_of_mem_filter hx)⟩) hhalting
  have hslots := eitherOrder_brings (first := slotsFirst) (f := fun u => u.failSlotsFor d .destContained) (g := State.flushSlots)
    (P := fun u => Waits u ∧ ∀ x ∈ u.sendQueue, x.inFlight = true)
    (Q := fun u => (Waits u ∧ ∀ x ∈ u.sendQueue, x.inFlight = true) ∧ ∀ i, (u.slot i).state ≠ .awaiting) (fun _ hu => hu)
    (fun _ hu => ⟨hu, fun _ => flushSlots_slot⟩) (fun _ hu => ⟨hu.1, fun i hi => hu.2 i (slot_failAwaiting hi).1⟩) hlanes
  refine quieted_of_stilled (eitherOrder_brings (first := dropFirst) (f := fun u => quiet (u.dropReturns d)) (g := fun u => quiet u.stopEngine)
    (P := fun u => (Waits u ∧ ∀ x ∈ u.sendQueue, x.inFlight = true) ∧ ∀ i, (u.slot i).state ≠ .awaiting) (Q := Stilled)
    (fun u hu => ?_) (fun u hu => ?_) (fun u hu => ?_) hslots)
  · obtain ⟨⟨hwaits, hsend⟩, hslots⟩ := hu
    have hdropped : Waits (u.dropReturns d) :=
      waits_leaveRoomWait (s := { u with returns := u.returns.filter fun r => r.inFlight || r.requester != d }) hwaits
    refine ⟨⟨hdropped, ?_⟩, ?_⟩ <;> rw [quiet_fst, State.dropReturns_frame]
    · exact hsend
    · exact hslots
  · obtain ⟨⟨hwaits, hsend⟩, hslots⟩ := hu
    obtain ⟨hengine, hnone⟩ := stopEngine_stilled hwaits
    refine ⟨fun x hx => hsend x ?_, fun i hi => hslots i ?_, hengine, hnone⟩
    · rcases u.stopEngine_spec with ⟨-, h⟩ | ⟨-, h⟩ <;> rw [quiet_fst, h] at hx <;> exact hx
    · rcases u.stopEngine_spec with ⟨-, h⟩ | ⟨-, h⟩ <;> rw [quiet_fst, h] at hi <;> exact hi
  · have hne : u.engine ≠ .roomWait := by rcases hu.2.2.1 with h | h <;> rw [h] <;> simp
    have hdrops : u.dropReturns d = { u with returns := u.returns.filter fun r => r.inFlight || r.requester != d } :=
      State.leaveRoomWait_of_ne { u with returns := u.returns.filter fun r => r.inFlight || r.requester != d } hne
    rw [quiet_fst, hdrops]
    exact hu

/-! ## The deeds -/

theorem releaseCandidate_sendQueue (hcontained : s.station = .contained) : ∀ x ∈ s.releaseCandidate.1.sendQueue, x ∈ s.sendQueue := by
  unfold State.releaseCandidate
  split
  · rw [if_pos hcontained]
    exact fun x hx => List.mem_of_mem_filter hx
  all_goals exact fun x hx => hx

theorem quieted_deed (h : Deed s t) (hs : Quieted s) : Quieted t := by
  cases h with
  | release =>
    have hsend := releaseCandidate_sendQueue (s := s)
    by_cases hcontained : s.station = .contained
    · have hsend' := hsend hcontained
      rw [(State.releaseCandidate_frame s).1]
      exact quieted_of hs id hsend' (fun _ => id) rfl rfl
    · rw [(State.releaseCandidate_frame s).1]
      exact quieted_open hs hcontained rfl rfl
  | sent =>
    rw [State.broadcastSent_frame]
    exact quieted_same hs rfl rfl rfl rfl rfl
  | counted =>
    rcases s.countRound_cases with ⟨-, h⟩ | ⟨-, -, h⟩ | ⟨-, -, h⟩ <;> rw [h]
    · exact hs
    · exact quieted_same hs rfl rfl rfl rfl rfl
    · exact quieted_open hs (by simp) rfl rfl
  | offline => exact quieted_open hs (by simp [State.goOffline]) rfl rfl
  | halts d =>
    rcases s.peerHalts_cases d with ⟨-, h⟩ | ⟨-, -, h, -⟩ <;> rw [h]
    · exact hs
    · exact quieted_closeDestination d _ (quieted_same hs rfl rfl rfl rfl rfl)
  | restarts d =>
    unfold State.peerRestarts
    dsimp only
    split
    · exact hs
    · split
      · exact quieted_same hs rfl rfl rfl rfl rfl
      · have hbooked : Quieted (s.setReach d { state := .reachable, silence := 0, timer := .stopped }) := quieted_same hs rfl rfl rfl rfl rfl
        rw [Effect.andThen_fst]
        exact quieted_failAwaiting (fun f => f.dest == d) .destRestarted hbooked
  | fault r => exact quieted_addFault r hs
  | contained cause addr length => exact quieted_enterContainment cause addr length hs.2
  | haltedBy d room addr length => exact quieted_haltedBy d room addr length hs.2
  | stays d status => exact quieted_of hs id (fun _ hx => List.mem_of_mem_filter hx) (fun _ => id) rfl rfl
  | busy d hopen =>
    unfold State.replyBusy
    dsimp only
    split <;> exact quieted_open hs hopen rfl rfl
  | released hopen => exact quieted_open hs hopen rfl rfl
  | leaves => exact quieted_of hs id (fun _ hx => List.mem_of_mem_filter hx) (fun _ => id) rfl rfl
  | taken x hactive =>
    have hopen : s.station ≠ .contained := by simp [hactive]
    rw [entryTaken_frame]
    exact quieted_open hs hopen rfl rfl
  | silent d => exact quieted_noReply d hs
  | returnLeaves => exact quieted_dropped _ hs
  | returnSilent d =>
    have hsilent := quieted_noReply d hs
    simp only [State.settleReturn, Effect.andThen_fst, quiet_fst]
    split
    · exact quieted_dropped _ hsilent
    · exact quieted_same hsilent rfl rfl rfl rfl rfl
  | _ => exact quieted_same hs rfl rfl rfl rfl rfl

/-- What changes neither the station state, the containment unit nor the candidate. -/
theorem flagged_closeDestination (d : Station) (status : Status) (hs : Flagged s) : Flagged (s.closeDestination d status).1 := by
  rw [(State.closeDestination_spec s d status).1]
  exact flagged_congr hs rfl rfl rfl

theorem flagged_noReply (d : Station) (hs : Flagged s) : Flagged (s.noReply d).1 := by
  rw [noReply_frame]
  exact flagged_congr hs rfl rfl rfl

theorem flagged_releaseCandidate (hs : Flagged s) : Flagged s.releaseCandidate.1 := by
  have hlate : s.source? ≠ some .contain → s.contain.late = 0 := fun h => by
    refine late_of_not_frozen hs ?_
    cases hc : s.span.candidate with
    | none => simp [State.containFrozen, hc]
    | some c =>
      have : c.source ≠ .contain := fun hsource => h (by simp [State.source?, hc, hsource])
      simp [State.containFrozen, hc, this]
  unfold State.releaseCandidate
  split
  · rename_i h
    split <;> exact flagged_candidate hs (hlate (by simp [h])) rfl rfl
  · rename_i h
    exact flagged_candidate hs (hlate (by simp [h])) rfl rfl
  · exact ⟨hs.1, hs.2.1, fun h => absurd rfl h⟩
  · rename_i h
    exact flagged_candidate hs (hlate (by simp [h])) rfl rfl
  · rename_i h
    exact flagged_candidate hs (hlate (by simp [h])) rfl rfl

theorem flagged_broadcastSent (hs : Flagged s) : Flagged s.broadcastSent := by
  unfold State.broadcastSent
  split
  · rename_i hc
    exact flagged_candidate hs (late_of_not_frozen hs (by simp [State.containFrozen, hc])) rfl rfl
  · rename_i mode _ _ _ _ _
    obtain ⟨hlate, hflag, hcause, -, -⟩ := s.contain.sent_spec mode
    obtain ⟨hagrees, hpending, -⟩ := hs
    refine ⟨?_, fun p hp => ?_, fun h => absurd hlate h⟩
    · unfold ContainmentAgrees at hagrees ⊢
      change (s.station = _ → (s.contain.sent mode).flag = true) ∧ ((s.contain.sent mode).flag = true → s.station = _ ∨ s.station = _) ∧
        (s.contain.sent mode).flag = (s.contain.sent mode).cause.isSome
      rwa [hflag, hcause]
    · obtain ⟨q, hq, hmode⟩ := sent_mode hp
      rw [hmode]
      exact hpending q hq
  · exact hs

theorem flagged_haltedBy (d : Station) (room : Bool) (addr : Word) (length : Nat) (s : State) : Flagged (s.haltedBy d room addr length).1 := by
  obtain ⟨laneFirst, slotsFirst, dropFirst, h⟩ := haltedBy_eq s d room addr length
  have hhalting : Flagged (halting s d room addr length) := flagged_setContained _ _ _ _
  rw [h, Effect.andThen_fst, Effect.andThen_fst, Effect.andThen_fst]
  refine eitherOrder_brings (P := Flagged) (fun u hu => ?_) (fun u hu => ?_) (fun u hu => ?_) ?_
  rotate_left 3
  · refine eitherOrder_brings (P := Flagged) (fun u hu => flagged_congr hu rfl rfl rfl) (fun u hu => flagged_congr hu rfl rfl rfl)
      (fun u hu => flagged_congr hu rfl rfl rfl) ?_
    exact eitherOrder_brings (P := Flagged) (fun u hu => flagged_congr hu rfl rfl rfl) (fun u hu => flagged_congr hu rfl rfl rfl)
      (fun u hu => flagged_congr hu rfl rfl rfl) hhalting
  · rw [quiet_fst, State.dropReturns_frame]
    exact flagged_congr hu rfl rfl rfl
  · rcases u.stopEngine_spec with ⟨-, h⟩ | ⟨-, h⟩ <;> rw [quiet_fst, h]
    · exact hu
    · exact flagged_congr hu rfl rfl rfl
  · rw [quiet_fst, State.dropReturns_frame]
    exact flagged_congr hu rfl rfl rfl

theorem flagged_deed (h : Deed s t) (hs : Flagged s) : Flagged t := by
  have hdropped : ∀ (u : State) (keep : ReturnEntry → Bool), Flagged u → Flagged { u with returns := u.returns.filter keep }.leaveRoomWait := by
    intro u keep hu
    rw [State.leaveRoomWait_frame]
    exact flagged_congr hu rfl rfl rfl
  cases h with
  | span u hu => exact flagged_congr hs rfl rfl hu
  | release => exact flagged_releaseCandidate hs
  | sent => exact flagged_broadcastSent hs
  | counted =>
    rcases s.countRound_cases with ⟨-, h⟩ | ⟨-, -, h⟩ | ⟨hlistening, -, h⟩ <;> rw [h]
    · exact hs
    · exact flagged_congr hs rfl rfl rfl
    · exact flagged_moves hs (by simp [hlistening]) (flag_of_joined hs (by simp [hlistening]) (by simp [hlistening])) (by simp) rfl rfl
  | offline hnone hstation =>
    have hopen : s.station ≠ .contained ∧ s.station ≠ .offline := by rcases hstation with h | h <;> simp [h]
    exact flagged_moves hs hopen.1 (flag_of_joined hs hopen.1 hopen.2) (by simp [State.goOffline]) rfl hnone.symm
  | halts d =>
    rcases s.peerHalts_cases d with ⟨-, h⟩ | ⟨-, -, h, -⟩ <;> rw [h]
    · exact hs
    · exact flagged_closeDestination d _ (flagged_congr hs rfl rfl rfl)
  | restarts d =>
    unfold State.peerRestarts
    dsimp only
    split
    · exact hs
    · split <;> exact flagged_congr hs rfl rfl rfl
  | fault r => exact flagged_addFault r hs
  | contained cause addr length => exact flagged_enterContainment cause addr length s
  | haltedBy d room addr length => exact flagged_haltedBy d room addr length s
  | busy d =>
    unfold State.replyBusy
    dsimp only
    split <;> exact flagged_congr hs rfl rfl rfl
  | taken x =>
    rw [entryTaken_frame]
    exact flagged_congr hs rfl rfl rfl
  | silent d => exact flagged_noReply d hs
  | returnLeaves => exact hdropped _ _ hs
  | returnSilent d =>
    have hsilent := flagged_noReply d hs
    simp only [State.settleReturn, Effect.andThen_fst, quiet_fst]
    split
    · exact hdropped _ _ hsilent
    · exact flagged_congr hsilent rfl rfl rfl
  | _ => exact flagged_congr hs rfl rfl rfl

/-! ## The end of an access to node memory -/

/-- The report of an apply fault is made, extended, or left to the HALTED CONTAIN (R130, R131). -/
theorem flagged_report (source : Station) (addr : Word) (length : Nat) (hopen : s.station ≠ .contained) (hs : Flagged s) :
    Flagged { s with contain := s.contain.report s.containFrozen source addr length } := by
  obtain ⟨⟨-, hflag, hcause⟩, hpending, hlate⟩ := hs
  unfold ContainUnit.report
  split
  · refine ⟨⟨fun h => absurd h hopen, hflag, hcause⟩, fun p hp => ?_, hlate⟩
    cases hp
    exact iff_of_false (by simp) hopen
  · rename_i p hp
    split
    · rename_i hmode
      refine ⟨⟨fun h => absurd h hopen, hflag, hcause⟩, fun q hq => ?_, fun h => ?_⟩
      · cases hq
        exact iff_of_false (by simp [hmode]) hopen
      · cases hfrozen : s.containFrozen with
        | true => exact hfrozen
        | false => exact hfrozen ▸ hlate (by simpa [hfrozen] using h)
    · exact ⟨⟨fun h => absurd h hopen, hflag, hcause⟩, hpending, hlate⟩

theorem flagged_applyFault (x : InboundEntry) (hs : Flagged s) : Flagged (s.applyFault x).1 := by
  have hrecord : ∀ halted, Flagged (s.recordFault x halted).1 := fun halted => flagged_addFault _ hs
  have hstation : ∀ halted, (s.recordFault x halted).1.station = s.station := fun halted => by simp [State.recordFault]
  unfold State.applyFault
  split
  · rename_i hoffline
    split
    · obtain ⟨-, hpending, hlate⟩ := hrecord true
      have hoffline' : (s.recordFault x true).1.station = .offline := (hstation true).trans hoffline
      rw [Effect.andThen_fst, quiet_fst]
      generalize (s.recordFault x true).1 = u at hpending hlate hoffline'
      exact ⟨⟨fun h => absurd (hoffline'.symm.trans h) (by simp), fun _ => .inr hoffline', rfl⟩, hpending, hlate⟩
    · exact hrecord false
  · split
    · exact hrecord false
    · rename_i hopen
      split
      · exact flagged_enterContainment _ _ _ _
      · rw [Effect.andThen_fst, quiet_fst]
        exact flagged_report _ _ _ (fun h => hopen (.inl ((hstation false).symm.trans h))) (hrecord false)

theorem flagged_engineGoesOn (hs : Flagged s) : Flagged s.engineGoesOn.1 := by
  unfold State.engineGoesOn
  split
  · exact flagged_congr hs rfl rfl rfl
  · rw [(State.takeHead_frame _).1]
    exact flagged_congr hs rfl rfl rfl

theorem flagged_postEnds (x : InboundEntry) (ending : AccessEnd) (hs : Flagged s) : Flagged (s.postEnds x ending).1 := by
  have hnext : ∀ u : State, Flagged u → Flagged u.dropHead.engineGoesOn.1 := fun u hu =>
    flagged_engineGoesOn (s := u.dropHead) (flagged_congr hu rfl rfl rfl)
  cases ending with
  | ok => exact hnext s hs
  | error =>
    simp only [State.postEnds]
    split
    · exact flagged_applyFault (s := { s with engine := .stopped }) x (flagged_congr hs rfl rfl rfl)
    · exact hnext _ (flagged_applyFault x hs)

theorem flagged_fetchEnds (x : InboundEntry) (ending : ReadEnd) (hs : Flagged s) : Flagged (s.fetchEnds x ending).1 := by
  have hdropped : Flagged s.dropHead := flagged_congr hs rfl rfl rfl
  unfold State.fetchEnds
  split
  · rename_i length tag _
    refine flagged_engineGoesOn ?_
    rcases s.dropHead.joinReturn_cases x.source tag (readResult length ending) with ⟨-, h⟩ | ⟨-, -, h⟩ <;> rw [h]
    · exact hdropped
    · exact flagged_congr hdropped rfl rfl rfl
  · exact flagged_engineGoesOn hdropped

/-- What the send queue and the fetch table of a CONTAINED station hold (R54, R89). -/
def Flushed (s : State) : Prop :=
  s.station = .contained → (∀ x ∈ s.sendQueue, x.inFlight = true) ∧ ∀ i, (s.slot i).state ≠ .awaiting

theorem flushed_addFault (r : FaultRecord) (hs : Flushed s) : Flushed (s.addFault r) := by
  rcases s.addFault_cases r with ⟨-, h⟩ | ⟨-, h⟩ <;> rw [h] <;> exact hs

theorem flushed_enterContainment (cause : FaultCause) (addr : Word) (length : Nat) (s : State) :
    Flushed (s.enterContainment cause addr length).1 := fun _ => by
  rw [State.enterContainment, Effect.andThen_fst]
  exact ⟨fun _ hx => (List.mem_filter.mp hx).2, fun _ => flushSlots_slot⟩

theorem flushed_applyFault (x : InboundEntry) (hs : Flushed s) : Flushed (s.applyFault x).1 := by
  have hrecord : ∀ halted, Flushed (s.recordFault x halted).1 := fun halted => flushed_addFault _ hs
  unfold State.applyFault
  split
  · split
    · exact hrecord true
    · exact hrecord false
  · split
    · exact hrecord false
    · split
      · exact flushed_enterContainment _ _ _ _
      · exact hrecord false

/-- The engine of a CONTAINED station stops when its access has ended (R104). -/
theorem stilled_engineGoesOn (hs : Flushed s) (hnone : s.path.applyWaiting = none) (hcontained : s.engineGoesOn.1.station = .contained) :
    Stilled s.engineGoesOn.1 := by
  unfold State.engineGoesOn at hcontained ⊢
  split
  · rename_i h
    obtain ⟨hsend, hslots⟩ := hs h
    exact ⟨hsend, hslots, .inr rfl, hnone⟩
  · rename_i hopen
    rw [if_neg hopen, (State.takeHead_frame _).1] at hcontained
    exact absurd hcontained hopen

theorem applyFault_engine (x : InboundEntry) (h : s.engine = .stopped) : (s.applyFault x).1.engine = .stopped := by
  have hrecord : ∀ halted, (s.recordFault x halted).1.engine = .stopped := fun halted => by simpa [State.recordFault] using h
  unfold State.applyFault
  split
  · split
    · exact hrecord true
    · exact hrecord false
  · split
    · exact hrecord false
    · split
      · rcases State.stopEngine_spec ((s.recordFault x true).1.setContained .applyFault x.range.1 x.range.2) with ⟨haccess, -⟩ | ⟨-, hstop⟩
        · exact absurd ((hrecord true).symm.trans haccess) (by simp)
        · change State.engine (State.stopEngine _) = _
          rw [hstop]
      · exact hrecord false

theorem stilled_postEnds (x : InboundEntry) (ending : AccessEnd) (hs : Flushed s) (hready : Ready s)
    (hcontained : (s.postEnds x ending).1.station = .contained) : Stilled (s.postEnds x ending).1 := by
  have hnext : ∀ u : State, Flushed u → Ready u → u.dropHead.engineGoesOn.1.station = .contained → Stilled u.dropHead.engineGoesOn.1 :=
    fun u hu hready => stilled_engineGoesOn (s := u.dropHead) hu hready.2.1
  cases ending with
  | ok => exact hnext s hs hready hcontained
  | error =>
    simp only [State.postEnds] at hcontained ⊢
    split
    · rename_i h
      rw [if_pos h] at hcontained
      have hstopped : Ready ({ s with engine := .stopped }.applyFault x).1 := ready_applyFault x hready
      have hflushed : Flushed { s with engine := .stopped } := hs
      obtain ⟨hsend, hslots⟩ := flushed_applyFault x hflushed hcontained
      exact ⟨hsend, hslots, .inr (applyFault_engine x rfl), hstopped.2.1⟩
    · rename_i h
      rw [if_neg h] at hcontained
      exact hnext _ (flushed_applyFault x hs) (ready_applyFault x hready) hcontained

theorem stilled_fetchEnds (x : InboundEntry) (ending : ReadEnd) (hs : Flushed s) (hready : Ready s)
    (hcontained : (s.fetchEnds x ending).1.station = .contained) : Stilled (s.fetchEnds x ending).1 := by
  unfold State.fetchEnds at hcontained ⊢
  split
  · rename_i length tag hop
    simp only [hop] at hcontained
    rcases s.dropHead.joinReturn_cases x.source tag (readResult length ending) with ⟨-, h⟩ | ⟨-, -, h⟩ <;> rw [h] at hcontained ⊢
    · exact stilled_engineGoesOn (s := s.dropHead) hs hready.2.1 hcontained
    · exact stilled_engineGoesOn (s := { s.dropHead with returns := _ }) hs hready.2.1 hcontained
  · rename_i hop
    have hends : s.fetchEnds x ending = s.dropHead.engineGoesOn := by
      unfold State.fetchEnds
      split
      · exact absurd ‹_› (hop _ _ _)
      · rfl
    refine stilled_engineGoesOn (s := s.dropHead) hs hready.2.1 ?_
    rw [← hends]
    exact hcontained

/-- The path that falls FREE starts no access of a CONTAINED station's engine. -/
theorem quieted_pathFallsFree (hs : Quieted s) : Quieted s.pathFallsFree := by
  rcases s.pathFallsFree_cases with ⟨-, -, h⟩ | ⟨a, hsome, -, h⟩ | ⟨k, b, rest, -, -, h⟩ <;> rw [h]
  · exact quieted_of hs id (fun _ => id) (fun _ => id) rfl rfl
  · refine ⟨fun hcontained => ?_, iff_of_false (by simp [State.startApply]) (by simp [State.startApply])⟩
    have hnone := (hs.1 hcontained).2.2.2
    rw [hsome] at hnone
    cases hnone
  · exact quieted_of hs id (fun _ => id) (fun _ => id) rfl rfl

theorem flagged_pathFallsFree (hs : Flagged s) : Flagged s.pathFallsFree := by
  rw [State.pathFallsFree_frame]
  exact flagged_congr hs rfl rfl rfl

theorem flushed_pathFallsFree (hs : Quieted s) : Flushed s.pathFallsFree := fun h => by
  obtain ⟨hsend, hslots, -⟩ := (quieted_pathFallsFree hs).1 h
  exact ⟨hsend, hslots⟩

/-! ## The answer close -/

/-- The containment unit at an answer close: what waits for its answer is no CONTAIN, so there are no late sources (R9, R11, R131). -/
theorem late_of_answer (hs : Flagged s) (hcandidate : CandidateAgrees s) (hphase : inAnswer s.span.phase = true) : s.contain.late = 0 := by
  refine late_of_not_frozen hs ?_
  cases hc : s.span.candidate with
  | none => simp [State.containFrozen, hc]
  | some c =>
    have haddressed := (hcandidate c hc).2 hphase
    have hne : c.source ≠ .contain := fun h => by rw [h] at haddressed; cases haddressed
    simp [State.containFrozen, hc, hne]

theorem flagged_closing (o : AnswerOutcome) (hs : Flagged s) (hlate : s.contain.late = 0) : Flagged (closing s o).1 := by
  have hsettled := settleCandidate_settles s o
  have hholder := State.settleHolder_frame (s.settleCandidate o).1 (o == .good .taken)
  rw [Holding.closing_fst]
  generalize (s.settleCandidate o).1 = u at hsettled hholder ⊢
  generalize (u.settleHolder (o == .good .taken)).1 = v at hholder ⊢
  have hstation : v.station = s.station := by rw [hholder, hsettled]
  have hcontain : v.contain = s.contain := by rw [hholder, hsettled]
  have hended : Flagged v.endRound := flagged_candidate hs hlate hstation hcontain
  exact flagged_deed .counted hended

theorem quieted_settleHolder (taken : Bool) (hs : Quieted s) (hcontained : (s.settleHolder taken).1.station = .contained) :
    Stilled (s.settleHolder taken).1 := by
  have hstation : s.station = .contained := by
    rw [State.settleHolder_frame] at hcontained
    exact hcontained
  have hstilled : Stilled (s.settleProvisional taken) := hs.1 hstation
  have hset : ∀ (u : State) (k : SlotNo), Stilled u → Stilled (u.setSlot k freeSlot) := fun u k hu => by
    refine stilled_of hu (fun _ => id) (fun i hi => ?_) rfl rfl
    rw [State.slot_setSlot] at hi
    split at hi
    · cases hi
    · exact hi
  rw [State.settleHolder, State.wakeEngine_quiet (s.settleProvisional taken) (.inr hstation), Effect.quiet_andThen]
  split
  · rw [State.decideSlot, if_pos (show (s.settleProvisional taken).station = .contained from hstation)]
    exact hset _ _ hstilled
  · exact hstilled

theorem stilled_closing (o : AnswerOutcome) (hround : RoundAgrees s) (hs : Quieted s) (hcontained : (closing s o).1.station = .contained) :
    Stilled (closing s o).1 := by
  have hsettled : Quieted (s.settleCandidate o).1 := keeps_of_deeds (fun _ _ => quieted_deed) (settleCandidate_deeds hround o) hs
  have hholder := quieted_settleHolder (o == .good .taken) hsettled
  rw [Holding.closing_fst] at hcontained ⊢
  generalize ((s.settleCandidate o).1.settleHolder (o == .good .taken)).1 = v at hholder hcontained ⊢
  rcases v.endRound.countRound_cases with ⟨-, h⟩ | ⟨-, -, h⟩ | ⟨-, -, h⟩ <;> rw [h] at hcontained ⊢
  · exact hholder hcontained
  · exact hholder hcontained
  · cases hcontained

/-! ## Every command -/

/-- What the statement says of a station that is not held in reset. -/
def Kept (s : State) : Prop := Flagged s ∧ (s.station = .contained → Stilled s)

theorem kept_of (hs : Flagged s ∧ Quieted s) : Kept s := ⟨hs.1, hs.2.1⟩

theorem kept_done (h : Kept e.1) : Kept e.done := h

theorem kept_port {port : NodePort} (h : Kept s) : Kept { s with port := port } := h

theorem kept_same (hs : Kept s) (hstation : t.station = s.station) (hcontain : t.contain = s.contain) (hcandidate : t.span.candidate = s.span.candidate)
    (hsend : t.sendQueue = s.sendQueue) (hslots : t.slots = s.slots) (hengine : t.engine = s.engine) (hpath : t.path = s.path) : Kept t := by
  refine ⟨flagged_congr hs.1 hstation hcontain hcandidate, fun h => ?_⟩
  unfold Stilled State.slot
  rw [hsend, hslots, hengine, hpath]
  exact hs.2 (hstation ▸ h)

theorem kept_deeds (h : Deeds s t) (hs : Flagged s ∧ Quieted s) : Kept t :=
  kept_of (keeps_of_deeds (Law := fun s => Flagged s ∧ Quieted s) (fun _ _ hd hs => ⟨flagged_deed hd hs.1, quieted_deed hd hs.2⟩) h hs)

theorem kept_of_reset (hstation : s.station ≠ .contained) (hflag : s.contain.flag = false) (hcause : s.contain.cause = none)
    (hpending : s.contain.pendingContain = none) (hlate : s.contain.late = 0) : Kept s := by
  refine ⟨⟨⟨fun h => absurd h hstation, fun h => ?_, by rw [hflag, hcause]; rfl⟩, fun p hp => ?_, fun h => absurd hlate h⟩,
    fun h => absurd h hstation⟩
  · rw [hflag] at h; cases h
  · rw [hpending] at hp; cases hp

/-- A station that is not CONTAINED, with an untouched containment unit. -/
theorem kept_open (hs : Flagged s) (hopen : t.station ≠ .contained) (hstation : t.station = s.station) (hcontain : t.contain = s.contain)
    (hcandidate : t.span.candidate = s.span.candidate) : Kept t :=
  ⟨flagged_congr hs hstation hcontain hcandidate, fun h => absurd h hopen⟩

theorem kept_setSlot (k : SlotNo) {f : FetchSlot} (hf : f.state ≠ .awaiting) (hs : Kept s) : Kept (s.setSlot k f) := by
  refine ⟨flagged_congr hs.1 rfl rfl rfl, fun h => stilled_of (hs.2 h) (fun _ => id) (fun i hi => ?_) rfl rfl⟩
  rw [State.slot_setSlot] at hi
  split at hi
  · exact absurd hi hf
  · exact hi

theorem kept_expireFetch (k : SlotNo) (hs : Kept s) : Kept (s.expireFetch k).1 := by
  unfold State.expireFetch
  split
  · exact hs
  split
  · exact kept_setSlot k (f := freeSlot) (by simp [freeSlot]) hs
  split
  · rename_i hholding
    exact kept_setSlot k (by simp [hholding]) hs
  · exact hs

/-- An idle round has no candidate: its picture is empty (R6). -/
theorem candidate_of_idle (hround : RoundAgrees s) {owned settle : Bool} (hphase : s.span.phase = .closed 0 owned settle) :
    s.span.candidate = none := by
  obtain ⟨-, -, -, hreceives, -, -, hown⟩ := hround
  rw [hphase] at hown hreceives
  have hyields : owned = false := by simpa [ownRound] using hown
  exact hreceives (by rw [hyields]; rfl)

theorem kept_freeze (hround : RoundAgrees s) (hphase : s.span.phase = .none) (hs : Kept s) : Kept (s.freeze s.offer) := by
  have hnone : s.span.candidate = none := hround.2.2.2.1 (by rw [hphase]; rfl)
  have hlate : s.contain.late = 0 := late_of_not_frozen hs.1 (by simp [State.containFrozen, hnone])
  have h := freeze_offer s
  generalize s.freeze s.offer = t at h ⊢
  have hkept : ∀ u : State, u.station = s.station → u.contain = s.contain → u.sendQueue = s.sendQueue → u.slots = s.slots → u.engine = s.engine →
      u.path = s.path → Kept u := fun u hstation hcontain hsend hslots hengine hpath => by
    refine ⟨flagged_candidate hs.1 hlate hstation hcontain, fun h => ?_⟩
    unfold Stilled State.slot
    rw [hsend, hslots, hengine, hpath]
    exact hs.2 (hstation ▸ h)
  cases h with
  | entry older younger x hactive =>
    exact ⟨flagged_candidate hs.1 hlate rfl rfl, fun h => by rw [show _ = s.station from rfl, hactive] at h; cases h⟩
  | _ => exact hkept _ rfl rfl rfl rfl rfl rfl

theorem kept_happens {c : Instr} (h : Happens s c t) (hheld : t.held = false) (hengine : EngineAgrees s) (hround : RoundAgrees s)
    (hcandidate : CandidateAgrees s) (hs : Kept s) : Kept t := by
  have hboth : Flagged s ∧ Quieted s := ⟨hs.1, hs.2, hengine.2.1⟩
  cases h with
  | asserts => cases hheld
  | releases straps => exact kept_of_reset (by simp [released, State.resetWith]) rfl rfl rfl rfl
  | restarts port => exact kept_of_reset (by simp [State.restarted]) rfl rfl rfl rfl
  | marks hpart hphase => exact kept_freeze hround hphase hs
  | yields picture => exact kept_done (kept_deeds (yields_deeds picture) hboth)
  | idles owned settle hpart hphase =>
    exact kept_deeds ((endRound_deed (candidate_of_idle hround hphase)).one.tail .counted) hboth
  | outcome settle sent report _ hpart hhears => exact kept_done (kept_deeds (parcelOutcome_deeds hround hpart report hhears) hboth)
  | takesReturn asked driven k result _ _ _ hopen => exact kept_open hs.1 hopen rfl rfl rfl
  | takesEntry asked driven x _ _ _ hopen => exact kept_open hs.1 hopen rfl rfl rfl
  | closes ask driven o hpart hphase =>
    have hlate := late_of_answer hs.1 hcandidate (by rw [hphase]; rfl)
    have hclosed : Kept (closing s o).1 := ⟨flagged_closing o hs.1 hlate, stilled_closing o hround hboth.2⟩
    exact kept_done hclosed
  | expires k => exact kept_done (kept_expireFetch k hs)
  | writes x rest a ending _ hstate =>
    have hkept : Kept (s.pathFallsFree.postEnds x ending).1 :=
      ⟨flagged_postEnds x ending (flagged_pathFallsFree hs.1),
        stilled_postEnds x ending (flushed_pathFallsFree hboth.2) (ready_pathFallsFree hengine hstate)⟩
    exact kept_done hkept
  | reads x rest a ending _ hstate =>
    have hkept : Kept (s.pathFallsFree.fetchEnds x ending).1 :=
      ⟨flagged_fetchEnds x ending (flagged_pathFallsFree hs.1),
        stilled_fetchEnds x ending (flushed_pathFallsFree hboth.2) (ready_pathFallsFree hengine hstate)⟩
    exact kept_done hkept
  | lands k a status =>
    exact kept_done (kept_setSlot k (f := freeSlot) (by simp [freeSlot])
      (kept_of ⟨flagged_pathFallsFree hs.1, quieted_pathFallsFree hboth.2⟩))
  | frees => exact kept_of ⟨flagged_pathFallsFree hs.1, quieted_pathFallsFree hboth.2⟩
  | queues k d port _ hrefused =>
    refine kept_open hs.1 (fun h => ?_) rfl rfl rfl
    rw [State.refusedState, show s.station = .contained from h] at hrefused
    cases hrefused
  | joins config _ _ hunstarted =>
    have hopen : s.station ≠ .contained ∧ s.station ≠ .offline := by simp [hunstarted]
    exact ⟨flagged_moves hs.1 hopen.1 (flag_of_joined hs.1 hopen.1 hopen.2) (by simp [State.takeConfig, State.answer, State.initMask]) rfl rfl,
      fun h => by cases h⟩
  | masks mask =>
    have hmasked : Kept (s.applyMask mask).1 := by
      rw [State.applyMask]
      exact hs
    exact kept_port (kept_done hmasked)
  | clears => exact hs
  | pops record rest => cases record <;> exact hs
  | _ => exact kept_same hs rfl rfl rfl rfl rfl rfl rfl

/-- The three statements at once. -/
def Agrees (s : State) : Prop := ContainmentAgrees s ∧ PendingAgrees s ∧ ContainedHolds s

theorem agrees_of_kept (h : Kept s) : Agrees s := ⟨h.1.1, fun _ => h.1.2, fun _ => h.2⟩

theorem kept_of_agrees (h : Agrees s) (hheld : s.held = false) : Kept s := ⟨⟨h.1, h.2.1 hheld⟩, h.2.2 hheld⟩

/-- A station that is held in reset keeps its containment unit until the release. -/
theorem agrees_of_held (h : ContainmentAgrees s) (hheld : s.held = true) : Agrees s :=
  ⟨h, fun h' => (by rw [hheld] at h'; cases h'), fun h' => by rw [hheld] at h'; cases h'⟩

theorem agrees_happens {c : Instr} (h : Happens s c t) (hengine : EngineAgrees s) (hround : RoundAgrees s) (hcandidate : CandidateAgrees s)
    (hs : Agrees s) : Agrees t := by
  cases hheld : s.held with
  | false =>
    rcases happens_held h hheld with ht | rfl
    · exact agrees_of_kept (kept_happens h ht hengine hround hcandidate (kept_of_agrees hs hheld))
    · exact agrees_of_held (s := asserted s) hs.1 rfl
  | true =>
    have hpart : s.takesPart = false := by simp [State.takesPart, hheld]
    cases h with
    | nothing => exact hs
    | port => exact hs
    | asserts => exact agrees_of_held (s := asserted s) hs.1 rfl
    | releases straps => exact agrees_of_kept (kept_of_reset (by simp [released, State.resetWith]) rfl rfl rfl rfl)
    | frees a =>
      rw [State.pathFallsFree_frame]
      exact agrees_of_held (s := { s with path := s.pathFallsFree.path, engine := s.pathFallsFree.engine }) hs.1 hheld
    | _ => simp_all

/-- Settles O16: each deed of a round keeps the containment unit in agreement and what containment leaves; an access of node memory that ends and an
answer close are followed operation by operation. -/
theorem containmentKept : Obligations.ContainmentKept := by
  intro s t hengine hround hcandidate hagrees hpending hholds hstep
  rcases step_happens hstep with rfl | ⟨c, rest, h⟩
  · exact ⟨hagrees, hpending, hholds⟩
  · exact agrees_happens (s := { s with pending := rest }) h hengine hround hcandidate ⟨hagrees, hpending, hholds⟩

end Sys2Proof.Containment
end

section
/-! An UNSTARTED station keeps its reset values, and a LISTENING one has nothing to apply, to answer or to land until it joins (R151, R153, R156). -/

namespace Sys2Proof.Joiners

open Sys2Proof.Machine Sys2Proof.Safety Sys2Proof.Events Sys2Proof.Acts Sys2Proof.Selector Sys2Proof.Rounds Sys2Proof.Walk Sys2Proof.Controller
  Sys2Proof.Engine

variable {s t : State} {e : Effect}

/-! ## A station that has not joined -/

/-- The station has not yet joined the span (R156). -/
def Joining (s : State) : Prop := s.station = .unstarted ∨ s.station = .listening

/-- Nothing to apply, to answer or to land, no open episode, no CONTAIN and no HELLO pending, and a join watch that has not ended (R153, R156). -/
def Blank (s : State) : Prop :=
  s.inbound = [] ∧ s.engine = .idle ∧ s.returns = [] ∧ (∀ i, (s.slot i).state = .free) ∧ carries s.path.state = false ∧
    s.path.applyWaiting = none ∧ s.path.landingWaiting = [] ∧ (∀ n, (s.signalOf n).pending = false) ∧
    s.contain.flag = false ∧ s.contain.pendingContain = none ∧ s.contain.late = 0 ∧ s.helloPending = false ∧
    s.joinWatch < Config.watchLength

theorem joiningHolds_iff (s : State) : JoiningHolds s ↔ (Joining s → Blank s) := Iff.rfl

/-- An event that leaves all of it. -/
theorem blank_same (hs : Blank s) (hinbound : t.inbound = s.inbound) (hengine : t.engine = s.engine) (hreturns : t.returns = s.returns)
    (hslots : t.slots = s.slots) (hpath : t.path = s.path) (hsignals : t.signals = s.signals) (hcontain : t.contain = s.contain)
    (hhello : t.helloPending = s.helloPending) (hwatch : t.joinWatch = s.joinWatch) : Blank t := by
  unfold Blank State.slot State.signalOf at hs ⊢
  rwa [hinbound, hengine, hreturns, hslots, hpath, hsignals, hcontain, hhello, hwatch]

/-- An event that leaves the station state and all of it. -/
theorem holds_same (hs : JoiningHolds s) (hstation : t.station = s.station) (hinbound : t.inbound = s.inbound) (hengine : t.engine = s.engine)
    (hreturns : t.returns = s.returns) (hslots : t.slots = s.slots) (hpath : t.path = s.path) (hsignals : t.signals = s.signals)
    (hcontain : t.contain = s.contain) (hhello : t.helloPending = s.helloPending) (hwatch : t.joinWatch = s.joinWatch) : JoiningHolds t :=
  fun h => blank_same (hs (hstation ▸ h)) hinbound hengine hreturns hslots hpath hsignals hcontain hhello hwatch

theorem not_joining (h : s.station = .active ∨ s.station = .contained) : ¬ Joining s := by
  rintro (h' | h') <;> rcases h with h | h <;> rw [h'] at h <;> cases h

theorem holds_of_joined (h : s.station = .active ∨ s.station = .contained) : JoiningHolds s := fun h' => absurd h' (not_joining h)

/-! ## The deeds of a round -/

/-- A return list that is empty stays so, and an IDLE engine asks for nothing (R103). -/
theorem blank_dropped (keep : ReturnEntry → Bool) (hs : Blank s) : Blank { s with returns := s.returns.filter keep }.leaveRoomWait := by
  have hne : ({ s with returns := s.returns.filter keep } : State).engine ≠ .roomWait := by
    rw [show _ = s.engine from rfl, hs.2.1]
    simp
  have hnil : s.returns.filter keep = s.returns := by
    rw [hs.2.2.1]
    rfl
  rw [State.leaveRoomWait_of_ne _ hne]
  exact blank_same hs rfl rfl hnil rfl rfl rfl rfl rfl rfl

theorem blank_failAwaiting (which : FetchSlot → Bool) (status : Status) (hs : Blank s) : Blank (s.failAwaiting which status).1 := by
  obtain ⟨hinbound, hengine, hreturns, hslots, hrest⟩ := hs
  refine ⟨hinbound, hengine, hreturns, fun i => ?_, hrest⟩
  rw [State.failAwaiting_slot]
  split
  · rfl
  · exact hslots i

theorem blank_closeDestination (d : Station) (status : Status) (hs : Blank s) : Blank (s.closeDestination d status).1 := by
  have hlane : Blank (s.closeLane d status).1 := blank_same hs rfl rfl rfl rfl rfl rfl rfl rfl rfl
  exact blank_dropped _ (blank_failAwaiting (fun f => f.dest == d) status hlane)

theorem blank_noReply (d : Station) (hs : Blank s) : Blank (s.noReply d).1 := by
  rcases s.noReply_cases d with ⟨-, h⟩ | ⟨-, -, h⟩ | ⟨-, -, h⟩ <;> rw [h]
  · exact hs
  · exact blank_closeDestination d _ (blank_same hs rfl rfl rfl rfl rfl rfl rfl rfl rfl)
  · exact blank_same hs rfl rfl rfl rfl rfl rfl rfl rfl rfl

theorem blank_peerHalts (d : Station) (hs : Blank s) : Blank (s.peerHalts d).1 := by
  rcases s.peerHalts_cases d with ⟨-, h⟩ | ⟨-, -, h, -⟩ <;> rw [h]
  · exact hs
  · exact blank_closeDestination d _ (blank_same hs rfl rfl rfl rfl rfl rfl rfl rfl rfl)

theorem blank_peerRestarts (d : Station) (hs : Blank s) : Blank (s.peerRestarts d).1 := by
  have hbooked : ∀ x, Blank (s.setReach d x) := fun x => blank_same hs rfl rfl rfl rfl rfl rfl rfl rfl rfl
  unfold State.peerRestarts
  dsimp only
  split
  · exact hs
  · split
    · exact hbooked _
    · rw [Effect.andThen_fst]
      exact blank_failAwaiting (fun f => f.dest == d) .destRestarted (hbooked _)

theorem blank_released (hs : Blank s) : Blank s.releaseReturn :=
  blank_same hs rfl rfl (by rw [State.releaseReturn, hs.2.2.1]; rfl) rfl rfl rfl rfl rfl rfl

theorem blank_releaseCandidate (hs : Blank s) : Blank s.releaseCandidate.1 := by
  have hclear : Blank s.clearCandidate := blank_same hs rfl rfl rfl rfl rfl rfl rfl rfl rfl
  unfold State.releaseCandidate
  split
  · split <;> exact blank_same hclear rfl rfl rfl rfl rfl rfl rfl rfl rfl
  · exact blank_released hclear
  · obtain ⟨hinbound, hengine, hreturns, hslots, hcarries, hwaiting, hlandings, hsignals, hflag, hpending, -, hhello, hwatch⟩ := hs
    exact ⟨hinbound, hengine, hreturns, hslots, hcarries, hwaiting, hlandings, hsignals, hflag, hpending, rfl, hhello, hwatch⟩
  · exact hclear
  · exact hclear

theorem blank_broadcastSent (hs : Blank s) : Blank s.broadcastSent := by
  obtain ⟨hinbound, hengine, hreturns, hslots, hcarries, hwaiting, hlandings, hsignals, hflag, hpending, hlate, hhello, hwatch⟩ := id hs
  unfold State.broadcastSent
  split
  · exact ⟨hinbound, hengine, hreturns, hslots, hcarries, hwaiting, hlandings, hsignals, hflag, hpending, hlate, rfl, hwatch⟩
  · rename_i mode _ _ _ _ _
    obtain ⟨hlate', hflag', -⟩ := s.contain.sent_spec mode
    have hnone : (s.contain.sent mode).pendingContain = none := by
      cases h : (s.contain.sent mode).pendingContain with
      | none => rfl
      | some p =>
        obtain ⟨q, hq, -⟩ := Containment.sent_mode h
        rw [hpending] at hq
        cases hq
    exact ⟨hinbound, hengine, hreturns, hslots, hcarries, hwaiting, hlandings, hsignals, hflag'.trans hflag, hnone, hlate', hhello, hwatch⟩
  · exact hs

/-- A counted round keeps the watch below its end, or makes the station ACTIVE (R157, R158). -/
theorem holds_countRound (hs : JoiningHolds s) : JoiningHolds s.countRound := by
  rcases s.countRound_cases with ⟨-, h⟩ | ⟨hlistening, hwatch, h⟩ | ⟨-, -, h⟩ <;> rw [h]
  · exact hs
  · obtain ⟨hinbound, hengine, hreturns, hslots, hcarries, hwaiting, hlandings, hsignals, hflag, hpending, hlate, hhello, -⟩ := hs (.inr hlistening)
    exact fun _ => ⟨hinbound, hengine, hreturns, hslots, hcarries, hwaiting, hlandings, hsignals, hflag, hpending, hlate, hhello, hwatch⟩
  · exact holds_of_joined (.inl rfl)

theorem holds_addFault (r : FaultRecord) (hs : JoiningHolds s) : JoiningHolds (s.addFault r) := by
  rcases s.addFault_cases r with ⟨-, h⟩ | ⟨-, h⟩ <;> rw [h] <;> exact hs

theorem haltedBy_station (d : Station) (room : Bool) (addr : Word) (length : Nat) (s : State) :
    (s.haltedBy d room addr length).1.station = .contained := by
  obtain ⟨laneFirst, slotsFirst, dropFirst, h⟩ := haltedBy_eq s d room addr length
  rw [h, Effect.andThen_fst, Effect.andThen_fst, Effect.andThen_fst]
  have hdrops : ∀ u : State, u.station = .contained → (u.dropReturns d).station = .contained := fun u hu => by
    rw [State.dropReturns_frame]
    exact hu
  have hstops : ∀ u : State, u.station = .contained → u.stopEngine.station = .contained := fun u hu => by
    rcases u.stopEngine_spec with ⟨-, h⟩ | ⟨-, h⟩ <;> rw [h] <;> exact hu
  refine Containment.eitherOrder_brings (P := fun u => u.station = .contained) (Q := fun u => u.station = .contained) hdrops hstops hdrops ?_
  refine Containment.eitherOrder_brings (P := fun u => u.station = .contained) (Q := fun u => u.station = .contained) (fun _ hu => hu) (fun _ hu => hu)
    (fun _ hu => hu) ?_
  exact Containment.eitherOrder_brings (P := fun u => u.station = .contained) (Q := fun u => u.station = .contained) (fun _ hu => hu) (fun _ hu => hu)
    (fun _ hu => hu) rfl

theorem holds_deed (h : Deed s t) (hs : JoiningHolds s) : JoiningHolds t := by
  cases h with
  | release =>
    intro h
    rw [(State.releaseCandidate_frame s).1] at h
    exact blank_releaseCandidate (hs h)
  | sent =>
    intro h
    rw [State.broadcastSent_frame] at h
    exact blank_broadcastSent (hs h)
  | counted => exact holds_countRound hs
  | offline => exact fun h => by rcases h with h | h <;> cases h
  | halts d =>
    intro h
    have hsettles := peerHalts_settles s d
    rw [hsettles] at h
    exact blank_peerHalts d (hs h)
  | restarts d =>
    intro h
    have hframe := State.reachConsumes_frame s d false (some (.hello .low .halt))
    have hstation : (s.peerRestarts d).1.station = s.station := by
      rw [show (s.peerRestarts d).1 = (s.reachConsumes d false (some (.hello .low .halt))).1 from rfl, hframe]
    rw [hstation] at h
    exact blank_peerRestarts d (hs h)
  | fault r => exact holds_addFault r hs
  | contained cause addr length =>
    refine holds_of_joined (.inr ?_)
    rw [State.enterContainment_frame]
    rfl
  | haltedBy d room addr length => exact holds_of_joined (.inr (haltedBy_station d room addr length s))
  | busy d =>
    unfold State.replyBusy
    dsimp only
    split <;> exact holds_same hs rfl rfl rfl rfl rfl rfl rfl rfl rfl rfl
  | taken x hactive =>
    refine holds_of_joined (.inl ?_)
    rw [entryTaken_frame]
    exact hactive
  | silent d =>
    intro h
    rw [noReply_frame] at h
    exact blank_noReply d (hs h)
  | returnLeaves =>
    intro h
    rw [State.removeReturn_frame] at h
    exact blank_dropped _ (hs h)
  | returnSilent d =>
    intro h
    have hsettles := settleReturn_settles s d .void
    rw [hsettles] at h
    have hsilent := blank_noReply d (hs h)
    simp only [State.settleReturn, Effect.andThen_fst, quiet_fst]
    split
    · exact blank_dropped _ hsilent
    · exact blank_released hsilent
  | _ => exact holds_same hs rfl rfl rfl rfl rfl rfl rfl rfl rfl rfl

theorem holds_deeds (h : Deeds s t) (hs : JoiningHolds s) : JoiningHolds t := keeps_of_deeds (fun _ _ => holds_deed) h hs

/-! ## Every command -/

/-- A station that has not joined has no candidate, and its answer close settles nothing (R2, R11). -/
theorem closing_of_blank (o : AnswerOutcome) (hround : RoundAgrees s) (hjoining : Joining s) (hs : Blank s) :
    (closing s o).1 = s.endRound.countRound := by
  obtain ⟨hinbound, hengine, -, hslots, -⟩ := hs
  have hnone : s.span.candidate = none := by
    cases hc : s.span.candidate with
    | none => rfl
    | some c =>
      obtain ⟨-, hmark, hcandidate, -⟩ := hround
      exact absurd hjoining (not_joining (hmark (hcandidate (by rw [hc]; rfl))).2)
  have hopen : s.station ≠ .contained := by rcases hjoining with h | h <;> simp [h]
  have hself : ({ s with inbound := [] } : State) = s := by rw [← hinbound]
  have hidle : ({ s with engine := .idle } : State) = s := by rw [← hengine]
  have hprovisional : s.settleProvisional (o == .good .taken) = s := s.settleProvisional_none _ (by simp [hinbound])
  have hwake : s.wakeEngine = quiet s := by
    rw [State.wakeEngine, if_pos ⟨hengine, hopen⟩, State.takeHead_nil s hinbound, hidle]
  have hholder : s.holdingSlot? = none := by
    rw [State.holdingSlot?, List.find?_eq_none]
    intro i _
    simp [hslots i]
  rw [Holding.closing_fst, s.settleCandidate_none o hnone, quiet_fst, State.settleHolder, hprovisional, hwake, Effect.quiet_andThen, hholder]
  rfl

theorem holds_done (h : JoiningHolds e.1) : JoiningHolds e.done := h

theorem holds_port {port : NodePort} (h : JoiningHolds s) : JoiningHolds { s with port := port } := h

theorem holds_freeze (hs : JoiningHolds s) : JoiningHolds (s.freeze s.offer) := by
  have h := freeze_offer s
  generalize s.freeze s.offer = t at h ⊢
  cases h with
  | nothing => exact holds_same hs rfl rfl rfl rfl rfl rfl rfl rfl rfl rfl
  | contain _ hstation => exact holds_of_joined hstation
  | hello hactive => exact holds_of_joined (.inl hactive)
  | ret _ _ _ hstation => exact holds_of_joined hstation
  | entry _ _ _ hactive => exact holds_of_joined (.inl hactive)

theorem joined_of_answers (h : s.answers = true) : s.station = .active ∨ s.station = .contained := by
  simp only [State.answers, Bool.and_eq_true, Bool.or_eq_true, beq_iff_eq] at h
  exact h.1

/-- An ending of node memory finds a station that has joined, and it stays joined. -/
theorem holds_of_memory {x : InboundEntry} {rest : List InboundEntry} (hs : JoiningHolds s) (hinbound : s.inbound = x :: rest)
    (h : Chain .memory s e) : JoiningHolds e.1 := by
  obtain ⟨hunstarted, hlistening⟩ := joined_of_inbound hs hinbound
  intro hjoining
  rcases chain_moves h with hsame | ⟨hcontained, -⟩ | ⟨hp, -⟩
  · rw [hsame] at hjoining
    exact absurd hjoining (not_or.mpr ⟨hunstarted, hlistening⟩)
  · exact absurd hjoining (not_joining (.inr hcontained))
  · cases hp

theorem blank_of_reset (hinbound : s.inbound = []) (hengine : s.engine = .idle) (hreturns : s.returns = []) (hslots : s.slots = slotsReset)
    (hcarries : carries s.path.state = false) (hwaiting : s.path.applyWaiting = none) (hlandings : s.path.landingWaiting = [])
    (hsignals : ∀ n, (s.signalOf n).pending = false) (hflag : s.contain.flag = false) (hpending : s.contain.pendingContain = none)
    (hlate : s.contain.late = 0) (hhello : s.helloPending = false) (hwatch : s.joinWatch = 0) : Blank s :=
  ⟨hinbound, hengine, hreturns, fun i => by simp [State.slot, hslots, slotsReset, freeSlot], hcarries, hwaiting, hlandings, hsignals, hflag, hpending,
    hlate, hhello, by rw [hwatch]; decide⟩

/-- A change of the signal table that opens no episode. -/
theorem holds_signals {signals : Vector SignalEntry 16} (hs : JoiningHolds s)
    (hsignals : ∀ n, (s.signalOf n).pending = false → (({ s with signals := signals } : State).signalOf n).pending = false) :
    JoiningHolds { s with signals := signals } := fun h => by
  obtain ⟨hinbound, hengine, hreturns, hslots, hcarries, hwaiting, hlandings, hold, hrest⟩ := hs h
  exact ⟨hinbound, hengine, hreturns, hslots, hcarries, hwaiting, hlandings, fun n => hsignals n (hold n), hrest⟩

theorem holds_asserted (hs : JoiningHolds s) : JoiningHolds (asserted s) := fun h => by
  obtain ⟨hinbound, -, hreturns, hslots, hcarries, hwaiting, hlandings, hrest⟩ := hs h
  have hpath : carries (if s.held then s.path else s.path.abandon).state = false ∧ (if s.held then s.path else s.path.abandon).applyWaiting = none ∧
      (if s.held then s.path else s.path.abandon).landingWaiting = [] := by
    split
    · exact ⟨hcarries, hwaiting, hlandings⟩
    · exact ⟨carries_abandon _, rfl, rfl⟩
  have hreturns' : (asserted s).returns = [] := by
    change s.returns.map _ = []
    rw [hreturns]
    rfl
  exact ⟨hinbound, rfl, hreturns', hslots, hpath.1, hpath.2.1, hpath.2.2, hrest⟩

/-- A path that an abandoned access leaves, with nothing waiting. -/
theorem holds_frees (hs : JoiningHolds s) : JoiningHolds s.pathFallsFree := fun h => by
  rw [State.pathFallsFree_frame] at h
  obtain ⟨hinbound, hengine, hreturns, hslots, -, hwaiting, hlandings, hrest⟩ := hs h
  rw [s.pathFallsFree_quiet hwaiting hlandings]
  exact ⟨hinbound, hengine, hreturns, hslots, rfl, hwaiting, hlandings, hrest⟩

theorem holds_expireFetch (k : SlotNo) (hs : JoiningHolds s) : JoiningHolds (s.expireFetch k).1 := by
  by_cases hjoining : Joining s
  · have hfree := (hs hjoining).2.2.2.1 k
    have hquiet : s.expireFetch k = quiet s := by
      unfold State.expireFetch
      simp [hfree]
    rw [hquiet]
    exact hs
  · have hstation : (s.expireFetch k).1.station = s.station := by
      unfold State.expireFetch
      split
      · rfl
      split
      · rfl
      split <;> rfl
    exact fun h => absurd (show Joining s by rwa [Joining, ← hstation]) hjoining

theorem holds_closing (o : AnswerOutcome) (hround : RoundAgrees s) (hs : JoiningHolds s) : JoiningHolds (closing s o).1 := by
  by_cases hjoining : Joining s
  · rw [closing_of_blank o hround hjoining (hs hjoining)]
    exact holds_countRound (s := s.endRound) (holds_same hs rfl rfl rfl rfl rfl rfl rfl rfl rfl rfl)
  · intro h
    rcases movesAsListed_counted (c := .take) (fun h => by cases h) (by simp) (closing_counted o) with hsame | ⟨-, hactive, -⟩ | ⟨-, hcontained, -⟩ | ⟨-, hno, -⟩
    · exact absurd (show s.station = _ ∨ s.station = _ by rwa [hsame] at h) hjoining
    · exact absurd h (not_joining (.inl hactive))
    · exact absurd h (not_joining (.inr hcontained))
    · cases hno

theorem holds_setSignal (n : SignalNo) {x : SignalEntry} (hx : (s.signalOf n).pending = false → x.pending = false) (hs : JoiningHolds s) :
    JoiningHolds (s.setSignal n x) := by
  refine holds_signals hs fun k hk => ?_
  change ((s.setSignal n x).signalOf k).pending = false
  rw [State.signalOf_setSignal]
  split
  · subst_vars
    exact hx hk
  · exact hk

theorem holds_happens {c : Instr} (h : Happens s c t) (hround : RoundAgrees s) (hs : JoiningHolds s) : JoiningHolds t := by
  cases h with
  | asserts => exact holds_asserted hs
  | releases straps =>
    exact fun _ => blank_of_reset rfl rfl rfl rfl (carries_abandon _) rfl rfl (fun n => by simp [State.signalOf, released, State.resetWith, signalsReset, idleSignal])
      rfl rfl rfl rfl rfl
  | restarts port =>
    exact fun _ => blank_of_reset rfl rfl rfl rfl (carries_abandon _) rfl rfl
      (fun n => by simp [State.signalOf, State.restarted, State.clearEpisodes, idleSignal]) rfl rfl rfl rfl rfl
  | marks => exact holds_freeze hs
  | yields picture => exact holds_done (holds_deeds (yields_deeds picture) hs)
  | idles owned settle hpart hphase =>
    exact holds_countRound (s := s.endRound) (holds_same hs rfl rfl rfl rfl rfl rfl rfl rfl rfl rfl)
  | outcome settle sent report _ hpart hhears => exact holds_done (holds_deeds (parcelOutcome_deeds hround hpart report hhears) hs)
  | takesReturn asked driven k result _ _ hanswers => exact holds_of_joined (joined_of_answers hanswers)
  | takesEntry asked driven x _ _ hanswers => exact holds_of_joined (joined_of_answers hanswers)
  | closes ask driven o => exact holds_done (holds_closing o hround hs)
  | expires k => exact holds_done (holds_expireFetch k hs)
  | writes x rest a ending _ hstate _ hinbound => exact holds_done (holds_of_memory hs hinbound (writes_chain x ending hstate))
  | reads x rest a ending _ hstate _ hinbound => exact holds_done (holds_of_memory hs hinbound (reads_chain x ending hstate))
  | lands k a status _ hstate =>
    refine holds_done fun h => ?_
    have hstation : (s.pathFallsFree.endFetch k status).1.station = s.station := by
      change s.pathFallsFree.station = s.station
      rw [State.pathFallsFree_frame]
    have hcarries := (hs (show s.station = _ ∨ s.station = _ by rwa [hstation] at h)).2.2.2.2.1
    rw [hstate] at hcarries
    cases hcarries
  | frees => exact holds_frees hs
  | joins config _ _ hunstarted =>
    obtain ⟨hinbound, hengine, hreturns, hslots, hcarries, hwaiting, hlandings, hsignals, hflag, hpending, hlate, hhello, -⟩ := hs (.inl hunstarted)
    exact fun _ => ⟨hinbound, hengine, hreturns, hslots, hcarries, hwaiting, hlandings,
      fun n => by simpa [State.signalOf, State.takeConfig, State.initMask, State.answer] using hsignals n, hflag, hpending, hlate, hhello, by
        simp [State.takeConfig, State.initMask, State.answer, Config.watchLength]⟩
  | masks mask =>
    have hframe : (s.applyMask mask).1 = { s with signals := (s.applyMask mask).1.signals } := by rw [State.applyMask]
    have hmasked : JoiningHolds (s.applyMask mask).1 := by
      rw [hframe]
      refine holds_signals hs fun n h => ?_
      change ((s.applyMask mask).1.signalOf n).pending = false
      rw [State.applyMask_signalOf]
      exact h
    exact holds_port (holds_done hmasked)
  | acknowledges n port => exact holds_port (holds_setSignal n (fun _ => rfl) hs)
  | clears => exact hs
  | pops record rest =>
    cases record with
    | signal n first =>
      exact holds_port (s := State.readNotice { s with completions := rest } n) (holds_setSignal (s := { s with completions := rest }) n (fun h => h) hs)
    | request => exact hs
    | station => exact hs
  | _ => exact holds_same hs rfl rfl rfl rfl rfl rfl rfl rfl rfl rfl

/-! ## An UNSTARTED station -/

/-- A command leaves an UNSTARTED station only where it found one, or at a release (R150, R151). -/
theorem unstarted_of_happens {c : Instr} (h : Happens s c t) (hj : JoiningHolds s) (ht : t.station = .unstarted) :
    s.station = .unstarted ∨ ∃ straps, t = released s straps := by
  rcases happens_moves hj h with (hsame | ⟨-, hactive, -⟩ | ⟨-, hcontained, -⟩ | ⟨-, -, hoffline⟩) | ⟨-, -, hreleased⟩ | ⟨-, -, hlistening⟩ | ⟨-, hlistening⟩
  · exact .inl (hsame.symm.trans ht)
  · cases hactive.symm.trans ht
  · cases hcontained.symm.trans ht
  · cases hoffline.symm.trans ht
  · exact .inr hreleased
  · cases hlistening.symm.trans ht
  · cases hlistening.symm.trans ht

theorem unstarted_of_released (straps : BitVec 4) : UnstartedHolds (released s straps) := fun _ =>
  ⟨rfl, rfl, rfl, rfl, rfl, rfl, rfl, rfl, rfl, rfl, rfl, carries_abandon _, rfl, rfl, rfl, rfl⟩

/-- A path that carries nothing of this station's, with nothing waiting, stays such when the access that it abandoned ends, or it is reset. -/
theorem path_of_reset {m : MemPath} (hpath : m = { MemPath.reset with state := m.state }) (hcarries : carries m.state = false) :
    m.abandon = { MemPath.reset with state := m.abandon.state } := by
  rw [hpath]
  cases h : m.state <;> simp_all [MemPath.abandon, MemPath.reset, carries]

theorem unstarted_happens {c : Instr} (h : Happens s c t) (hs : UnstartedHolds s) (hunstarted : s.station = .unstarted) : UnstartedHolds t := by
  have hpart : s.takesPart = false := by simp [State.takesPart, hunstarted]
  obtain ⟨hconfig, hwatch, hhello, hspan, hturn, hsend, hreach, hslots, hinbound, hengine, hreturns, hcarries, hpath, hsignals, hcontain,
    hcompletions⟩ := hs hunstarted
  have hwaiting : s.path.applyWaiting = none := by rw [hpath]; rfl
  have hlandings : s.path.landingWaiting = [] := by rw [hpath]; rfl
  cases h with
  | nothing => exact hs
  | port => exact hs
  | asserts =>
    intro _
    have hpath' : carries (asserted s).path.state = false ∧ (asserted s).path = { MemPath.reset with state := (asserted s).path.state } := by
      change carries (if s.held then s.path else s.path.abandon).state = false ∧
        (if s.held then s.path else s.path.abandon) = { MemPath.reset with state := (if s.held then s.path else s.path.abandon).state }
      split
      · exact ⟨hcarries, hpath⟩
      · exact ⟨carries_abandon _, path_of_reset hpath hcarries⟩
    refine ⟨hconfig, hwatch, hhello, ?_, hturn, ?_, hreach, hslots, hinbound, rfl, ?_, hpath'.1, hpath'.2, hsignals, hcontain, hcompletions⟩
    · change { s.span with phase := .none, callMark := false, candidate := none } = SpanUnit.reset
      rw [hspan]
      rfl
    · change s.sendQueue.map _ = []
      rw [hsend]
      rfl
    · change s.returns.map _ = []
      rw [hreturns]
      rfl
  | releases straps => exact unstarted_of_released straps
  | frees a hstate =>
    rw [s.pathFallsFree_quiet hwaiting hlandings]
    exact fun _ => ⟨hconfig, hwatch, hhello, hspan, hturn, hsend, hreach, hslots, hinbound, hengine, hreturns, rfl, by rw [hpath], hsignals, hcontain,
      hcompletions⟩
  | retries d _ hwaits =>
    rw [Resets.reachOf_of_reset hreach] at hwaits
    simp only at hwaits
    split at hwaits <;> cases hwaits
  | expires k =>
    have hquiet : s.expireFetch k = quiet s := by
      unfold State.expireFetch
      simp [State.slot, hslots, slotsReset, freeSlot]
    rw [hquiet, Effect.done_quiet]
    exact hs
  | writes x rest a ending _ _ _ hentry => cases hinbound.symm.trans hentry
  | reads x rest a ending _ _ _ hentry => cases hinbound.symm.trans hentry
  | lands k a status _ hstate =>
    rw [hstate] at hcarries
    cases hcarries
  | queues k d port _ hrefused =>
    rw [State.refusedState, hunstarted] at hrefused
    cases hrefused
  | joins config => exact fun h => by cases h
  | pops record rest port _ hrecord => cases hcompletions.symm.trans hrecord
  | _ => simp_all

/-- Settles O21: an UNSTARTED station meets no round, no access and no record, and each deed of a round leaves a LISTENING one with nothing to serve. -/
theorem joiningKept : Obligations.JoiningKept := by
  intro s t hround hunstarted hjoining hstep
  rcases step_happens hstep with rfl | ⟨c, rest, h⟩
  · exact ⟨hunstarted, hjoining⟩
  · refine ⟨fun ht => ?_, holds_happens (s := { s with pending := rest }) h hround hjoining⟩
    rcases unstarted_of_happens (s := { s with pending := rest }) h hjoining ht with hs | ⟨straps, rfl⟩
    · exact unstarted_happens (s := { s with pending := rest }) h hunstarted hs ht
    · exact unstarted_of_released straps ht

end Sys2Proof.Joiners
end

section
/-! Nothing waits for a station that is closed (R41, R52, R71, R106): a destination's entry closes together with its lane, its AWAITING slots and its
RETURNs, and no other deed closes one or has anything new wait. -/

namespace Sys2Proof.Lanes

open Sys2Proof.Machine Sys2Proof.Safety Sys2Proof.Events Sys2Proof.Acts Sys2Proof.Selector Sys2Proof.Rounds Sys2Proof.Walk Sys2Proof.Controller
  Sys2Proof.Containment

variable {s t : State} {e : Effect}

/-! ## What waits -/

/-- A fetch may wait for an entry in that state (R71). -/
def Answers (x : ReachEntry) : Prop := x.state = .reachable ∨ x.state = .waiting

/-- A RETURN may wait for an entry in that state (R106). -/
def Open (x : ReachEntry) : Prop := x.state ≠ .unreachable ∧ x.state ≠ .contained

/-- An entry becomes another one without closing (R62, R63, R65, R66, R70). -/
def Opens (x y : ReachEntry) : Prop := (Answers x → Answers y) ∧ (Open x → Open y) ∧ (x.state = .self ↔ y.state = .self)

theorem opens_refl (x : ReachEntry) : Opens x x := ⟨id, id, Iff.rfl⟩

/-- The slot waits for the RETURN of its fetch. -/
def Waiting (f : FetchSlot) : Prop := f.state = .awaiting ∨ f.state = .holding

/-- Nothing waits for a station that is closed, and the entry of the strap number is SELF. -/
def Served (s : State) : Prop :=
  (∀ i, Waiting (s.slot i) → Answers (s.reachOf (s.slot i).dest)) ∧
    (∀ x ∈ s.sendQueue, Open (s.reachOf x.dest) ∧ (s.reachOf x.dest).state ≠ .self) ∧ (∀ r ∈ s.returns, Open (s.reachOf r.requester)) ∧
    ∀ d, s.isSelf d = true → (s.reachOf d).state = .self

theorem served_iff (s : State) :
    Served s ↔ WaitsAgree s ∧ LanesAgree s ∧ ∀ d, s.isSelf d = true → (s.reachOf d).state = .self := by
  unfold Served WaitsAgree LanesAgree Waiting Answers Open
  constructor
  · rintro ⟨hslots, hsend, hreturns, hself⟩
    exact ⟨hslots, ⟨fun x hx => ⟨(hsend x hx).1.1, (hsend x hx).1.2, (hsend x hx).2⟩, hreturns⟩, hself⟩
  · rintro ⟨hslots, ⟨hsend, hreturns⟩, hself⟩
    exact ⟨hslots, fun x hx => ⟨⟨(hsend x hx).1, (hsend x hx).2.1⟩, (hsend x hx).2.2⟩, hreturns, hself⟩

/-- Nothing new waits in `t`, and no entry closes. -/
structure Shrinks (s t : State) : Prop where
  reach : ∀ d, Opens (s.reachOf d) (t.reachOf d)
  strap : t.strap = s.strap
  slots : ∀ i, Waiting (t.slot i) → Waiting (s.slot i) ∧ (t.slot i).dest = (s.slot i).dest
  send : ∀ x ∈ t.sendQueue, ∃ y ∈ s.sendQueue, x.dest = y.dest
  returns : ∀ x ∈ t.returns, ∃ y ∈ s.returns, x.requester = y.requester

theorem Shrinks.served (h : Shrinks s t) (hs : Served s) : Served t := by
  obtain ⟨hslots, hsend, hreturns, hself⟩ := hs
  refine ⟨fun i hi => ?_, fun x hx => ?_, fun r hr => ?_, fun d hd => ?_⟩
  · obtain ⟨hold, hdest⟩ := h.slots i hi
    rw [hdest]
    exact (h.reach _).1 (hslots i hold)
  · obtain ⟨y, hy, hdest⟩ := h.send x hx
    obtain ⟨hopen, hne⟩ := hsend y hy
    rw [hdest]
    exact ⟨(h.reach _).2.1 hopen, fun heq => hne ((h.reach _).2.2.mpr heq)⟩
  · obtain ⟨y, hy, hreq⟩ := h.returns r hr
    rw [hreq]
    exact (h.reach _).2.1 (hreturns y hy)
  · rw [State.isSelf, h.strap] at hd
    exact (h.reach d).2.2.mp (hself d hd)

theorem same_reach (h : t.reach = s.reach) (d : Station) : Opens (s.reachOf d) (t.reachOf d) := by
  rw [State.reachOf, State.reachOf, h]
  exact opens_refl _

theorem same_slots (h : t.slots = s.slots) (i : SlotNo) : Waiting (t.slot i) → Waiting (s.slot i) ∧ (t.slot i).dest = (s.slot i).dest := by
  rw [State.slot, State.slot, h]
  exact fun hi => ⟨hi, rfl⟩

theorem same_send (h : t.sendQueue = s.sendQueue) : ∀ x ∈ t.sendQueue, ∃ y ∈ s.sendQueue, x.dest = y.dest := fun x hx => ⟨x, h ▸ hx, rfl⟩

theorem same_returns (h : t.returns = s.returns) : ∀ x ∈ t.returns, ∃ y ∈ s.returns, x.requester = y.requester := fun x hx => ⟨x, h ▸ hx, rfl⟩

theorem shrinks_same (hreach : t.reach = s.reach) (hstrap : t.strap = s.strap) (hslots : t.slots = s.slots) (hsend : t.sendQueue = s.sendQueue)
    (hreturns : t.returns = s.returns) : Shrinks s t :=
  ⟨same_reach hreach, hstrap, same_slots hslots, same_send hsend, same_returns hreturns⟩

theorem Shrinks.trans {u : State} (h : Shrinks s t) (h' : Shrinks t u) : Shrinks s u := by
  refine ⟨fun d => ?_, h'.strap.trans h.strap, fun i hi => ?_, fun x hx => ?_, fun x hx => ?_⟩
  · obtain ⟨hwaits, hopen, hself⟩ := h.reach d
    obtain ⟨hwaits', hopen', hself'⟩ := h'.reach d
    exact ⟨hwaits' ∘ hwaits, hopen' ∘ hopen, hself.trans hself'⟩
  · obtain ⟨hmid, hdest⟩ := h'.slots i hi
    obtain ⟨hold, hdest'⟩ := h.slots i hmid
    exact ⟨hold, hdest.trans hdest'⟩
  · obtain ⟨y, hy, hdest⟩ := h'.send x hx
    obtain ⟨z, hz, hdest'⟩ := h.send y hy
    exact ⟨z, hz, hdest.trans hdest'⟩
  · obtain ⟨y, hy, hreq⟩ := h'.returns x hx
    obtain ⟨z, hz, hreq'⟩ := h.returns y hy
    exact ⟨z, hz, hreq.trans hreq'⟩

/-! ## The operations that close nothing -/

/-- An entry of the reach table that does not close. -/
theorem shrinks_setReach {d : Station} {x : ReachEntry} (h : Opens (s.reachOf d) x) : Shrinks s (s.setReach d x) := by
  refine ⟨fun k => ?_, rfl, same_slots rfl, same_send rfl, same_returns rfl⟩
  rw [State.reachOf_setReach]
  split
  · subst_vars
    exact h
  · exact opens_refl _

theorem shrinks_setSlot {k : SlotNo} {f : FetchSlot} (h : Waiting f → Waiting (s.slot k) ∧ f.dest = (s.slot k).dest) : Shrinks s (s.setSlot k f) := by
  refine ⟨same_reach rfl, rfl, fun i hi => ?_, same_send rfl, same_returns rfl⟩
  rw [State.slot_setSlot] at hi ⊢
  split at hi
  · subst_vars
    rw [if_pos rfl]
    exact h hi
  · rename_i hne
    rw [if_neg hne]
    exact ⟨hi, rfl⟩

theorem not_waiting_free : ¬ Waiting freeSlot := by simp [Waiting, freeSlot]

theorem shrinks_failAwaiting (which : FetchSlot → Bool) (status : Status) (s : State) : Shrinks s (s.failAwaiting which status).1 := by
  refine ⟨same_reach rfl, rfl, fun i hi => ?_, same_send rfl, same_returns rfl⟩
  rw [State.failAwaiting_slot] at hi ⊢
  split at hi
  · exact absurd hi not_waiting_free
  · rename_i hstays
    rw [if_neg hstays]
    exact ⟨hi, rfl⟩

theorem shrinks_filterSend (keep : SendEntry → Bool) (s : State) : Shrinks s { s with sendQueue := s.sendQueue.filter keep } :=
  ⟨same_reach rfl, rfl, same_slots rfl, fun x hx => ⟨x, List.mem_of_mem_filter hx, rfl⟩, same_returns rfl⟩

theorem shrinks_mapSend {f : SendEntry → SendEntry} (hf : ∀ x, (f x).dest = x.dest) (s : State) :
    Shrinks s { s with sendQueue := s.sendQueue.map fun x => if x.inFlight then f x else x } := by
  refine ⟨same_reach rfl, rfl, same_slots rfl, fun x hx => ?_, same_returns rfl⟩
  obtain ⟨y, hy, rfl⟩ := List.mem_map.mp hx
  refine ⟨y, hy, ?_⟩
  split
  · exact hf y
  · rfl

theorem shrinks_releaseReturn (s : State) : Shrinks s s.releaseReturn := by
  refine ⟨same_reach rfl, rfl, same_slots rfl, same_send rfl, fun x hx => ?_⟩
  obtain ⟨y, hy, rfl⟩ := List.mem_map.mp hx
  exact ⟨y, hy, rfl⟩

theorem shrinks_leaveRoomWait (s : State) : Shrinks s s.leaveRoomWait := by
  rw [State.leaveRoomWait_frame]
  exact shrinks_same rfl rfl rfl rfl rfl

theorem shrinks_dropped (keep : ReturnEntry → Bool) (s : State) : Shrinks s { s with returns := s.returns.filter keep }.leaveRoomWait := by
  rw [State.leaveRoomWait_frame]
  exact ⟨same_reach rfl, rfl, same_slots rfl, same_send rfl, fun x hx => ⟨x, List.mem_of_mem_filter hx, rfl⟩⟩

theorem opens_alive {x : ReachEntry} : Opens x x.alive := by
  cases h : x.state <;> simp [Opens, Answers, Open, ReachEntry.alive, h]

theorem opens_heard (x : ReachEntry) (room : Bool) : Opens x (x.heard room) := by
  cases h : x.state <;> cases room <;> simp [Opens, Answers, Open, ReachEntry.heard, ReachEntry.alive, ReachEntry.room, h]

theorem shrinks_bookReply (d : Station) (s : State) : Shrinks s (s.bookReply d) := by
  refine shrinks_setReach ?_
  split
  · exact opens_refl _
  · exact opens_alive

theorem shrinks_replyBusy (d : Station) (s : State) : Shrinks s (s.replyBusy d) := by
  unfold State.replyBusy
  dsimp only
  split
  · rename_i h
    refine (shrinks_bookReply d s).trans (shrinks_setReach ?_)
    rcases h with h | h <;> simp [Opens, Answers, Open, h]
  · exact shrinks_bookReply d s

theorem shrinks_peerRestarts (d : Station) (s : State) : Shrinks s (s.peerRestarts d).1 := by
  unfold State.peerRestarts
  dsimp only
  split
  · exact shrinks_same rfl rfl rfl rfl rfl
  · rename_i hself
    have hbooked : Shrinks s (s.setReach d { state := .reachable, silence := 0, timer := .stopped }) :=
      shrinks_setReach (by simp [Opens, Answers, Open, hself])
    split
    · exact hbooked
    · rw [Effect.andThen_fst]
      exact hbooked.trans (shrinks_failAwaiting (fun f => f.dest == d) .destRestarted _)

theorem shrinks_addFault (r : FaultRecord) (s : State) : Shrinks s (s.addFault r) := by
  rcases s.addFault_cases r with ⟨-, h⟩ | ⟨-, h⟩ <;> rw [h] <;> exact shrinks_same rfl rfl rfl rfl rfl

theorem shrinks_stopEngine (s : State) : Shrinks s s.stopEngine := by
  rcases s.stopEngine_spec with ⟨-, h⟩ | ⟨-, h⟩ <;> rw [h] <;> exact shrinks_same rfl rfl rfl rfl rfl

theorem shrinks_enterContainment (cause : FaultCause) (addr : Word) (length : Nat) (s : State) :
    Shrinks s (s.enterContainment cause addr length).1 := by
  have hcontained : Shrinks s (s.setContained cause addr length) := shrinks_same rfl rfl rfl rfl rfl
  rw [State.enterContainment, Effect.andThen_fst]
  exact ((hcontained.trans (shrinks_stopEngine _)).trans (shrinks_filterSend _ _)).trans (shrinks_failAwaiting (fun _ => true) .localContained _)

theorem shrinks_releaseCandidate (s : State) : Shrinks s s.releaseCandidate.1 := by
  have hclear : Shrinks s s.clearCandidate := shrinks_same rfl rfl rfl rfl rfl
  unfold State.releaseCandidate
  split
  · split
    · exact hclear.trans (shrinks_filterSend _ _)
    · exact hclear.trans (shrinks_mapSend (f := SendEntry.release) (fun _ => rfl) _)
  · exact hclear.trans (shrinks_releaseReturn _)
  · exact shrinks_same rfl rfl rfl rfl rfl
  · exact hclear
  · exact hclear

/-! ## The closing of a station -/

/-- No slot is HOLDING. -/
def NoHolding (s : State) : Prop := ∀ i, (s.slot i).state ≠ .holding

/-- What a destination's closing leaves: nothing waits for it but a RETURN in flight, and nothing else is closed (R71). -/
theorem closed_spec {d : Station} {x : ReachEntry} {status : Status} (hs : Served s) (hno : NoHolding s)
    (hold : (s.reachOf d).state ≠ .self) {t : State} (ht : t = ((s.setReach d x).closeDestination d status).1) :
    (∀ r ∈ t.returns, r ∈ s.returns ∧ (r.requester ≠ d ∨ r.inFlight = true)) ∧
      ∀ q : List ReturnEntry, (∀ r ∈ q, r ∈ s.returns ∧ r.requester ≠ d) → Served { t with returns := q } := by
  obtain ⟨hslots, hsend, hreturns, hselves⟩ := hs
  have hframe := ((s.setReach d x).closeDestination_spec d status).1
  rw [← ht] at hframe
  have hreach : ∀ k, k ≠ d → t.reachOf k = s.reachOf k := fun k hk => by
    rw [hframe]
    change (s.setReach d x).reachOf k = _
    rw [State.reachOf_setReach, if_neg hk]
  have hslot : ∀ i, t.slot i = (((s.setReach d x).failSlotsFor d status).1).slot i := fun i => by
    rw [hframe]
    rfl
  have hret : t.returns = s.returns.filter fun r => r.inFlight || r.requester != d := by rw [hframe]; rfl
  have hqueue : t.sendQueue = s.sendQueue.filter fun e => e.dest != d := by rw [hframe]; rfl
  have hstrap : t.strap = s.strap := by rw [hframe]; rfl
  refine ⟨fun r hr => ?_, fun q hq => ⟨fun i hi => ?_, fun y hy => ?_, fun r hr => ?_, fun k hk => ?_⟩⟩
  · rw [hret] at hr
    obtain ⟨hr, hkeep⟩ := List.mem_filter.mp hr
    refine ⟨hr, ?_⟩
    simp only [Bool.or_eq_true, bne_iff_ne] at hkeep
    exact hkeep.symm
  · change Waiting (t.slot i) at hi
    change Answers (t.reachOf (t.slot i).dest)
    rw [hslot] at hi ⊢
    unfold Waiting at hi
    rw [State.failSlotsFor, State.failAwaiting_slot] at hi ⊢
    split at hi
    · exact absurd hi not_waiting_free
    · rename_i hstays
      rw [if_neg hstays]
      have hwaits : ((s.setReach d x).slot i).state = .awaiting := hi.resolve_right (hno i)
      have hne : (s.slot i).dest ≠ d := fun h => hstays (by simp [show (s.slot i).state = .awaiting from hwaits, h])
      rw [show (s.setReach d x).slot i = s.slot i from rfl, hreach _ hne]
      exact hslots i (.inl hwaits)
  · change y ∈ t.sendQueue at hy
    change Open (t.reachOf y.dest) ∧ (t.reachOf y.dest).state ≠ .self
    rw [hqueue] at hy
    obtain ⟨hy, hne⟩ := List.mem_filter.mp hy
    rw [hreach _ (by simpa using hne)]
    exact hsend y hy
  · obtain ⟨hmem, hne⟩ := hq r hr
    change Open (t.reachOf r.requester)
    rw [hreach _ hne]
    exact hreturns r hmem
  · have hk' : s.isSelf k = true := by
      change t.isSelf k = true at hk
      rwa [State.isSelf, hstrap] at hk
    have hne : k ≠ d := fun h => hold (h ▸ hselves k hk')
    change (t.reachOf k).state = .self
    rw [hreach k hne]
    exact hselves k hk'

theorem served_closed {d : Station} {x : ReachEntry} {status : Status} (hs : Served s) (hno : NoHolding s)
    (hold : (s.reachOf d).state ≠ .self) (hreturn : NoReturn s) : Served ((s.setReach d x).closeDestination d status).1 := by
  obtain ⟨hreturns, hserved⟩ := closed_spec (x := x) (status := status) hs hno hold rfl
  refine hserved _ fun r hr => ?_
  obtain ⟨hmem, hne | hflight⟩ := hreturns r hr
  · exact ⟨hmem, hne⟩
  · rw [hreturn r hmem] at hflight
    cases hflight

theorem served_peerHalts {d : Station} (hs : Served s) (hno : NoHolding s) (hmeets : Meets s d) : Served (s.peerHalts d).1 := by
  rcases s.peerHalts_cases d with ⟨-, h⟩ | ⟨-, hself, h, -⟩ <;> rw [h]
  · exact hs
  · exact served_closed hs hno hself (hmeets.resolve_right fun hd => hself (hs.2.2.2 d hd))

/-- A no-reply that does not close raises the silence count (R64). -/
theorem shrinks_silence (d : Station) (s : State) :
    Shrinks s (s.setReach d { s.reachOf d with silence := min ((s.reachOf d).silence + 1) 3 }) := shrinks_setReach ⟨id, id, Iff.rfl⟩

theorem served_noReply {d : Station} (hs : Served s) (hno : NoHolding s) (hreturn : NoReturn s) : Served (s.noReply d).1 := by
  rcases s.noReply_cases d with ⟨-, h⟩ | ⟨-, hstate, h⟩ | ⟨-, -, h⟩ <;> rw [h]
  · exact hs
  · exact served_closed hs hno (by rcases hstate with h | h | h <;> simp [h]) hreturn
  · exact (shrinks_silence d s).served hs

/-- A RETURN in flight whose requester gave no reply: it leaves with the closing, or stays (R64, R110). -/
theorem served_returnSilent {d : Station} (hs : Served s) (hno : NoHolding s) :
    Served (s.settleReturn d .void).1 := by
  have hsettle : ∀ u : State, Served u → Served (if (u.reachOf d).state = .unreachable then u.removeReturn else u.releaseReturn) := fun u hu => by
    split
    · exact (shrinks_dropped _ u).served hu
    · exact (shrinks_releaseReturn u).served hu
  simp only [State.settleReturn, Effect.andThen_fst, quiet_fst]
  rcases s.noReply_cases d with ⟨-, h⟩ | ⟨-, hstate, h⟩ | ⟨-, -, h⟩ <;> rw [h]
  · exact hsettle _ hs
  · have hself : (s.reachOf d).state ≠ .self := by rcases hstate with h | h | h <;> simp [h]
    have hclosed := closed_spec (x := { state := .unreachable, silence := 3, timer := .stopped }) (status := .unreachable) hs hno hself rfl
    have hreach : ((((s.setReach d { state := .unreachable, silence := 3, timer := .stopped }).closeDestination d .unreachable).1).reachOf d).state =
        .unreachable := by
      rw [(State.closeDestination_spec _ d .unreachable).1]
      change ((s.setReach d _).reachOf d).state = _
      rw [State.reachOf_setReach_same]
    rw [if_pos hreach]
    generalize ((s.setReach d { state := .unreachable, silence := 3, timer := .stopped }).closeDestination d .unreachable).1 = u at hclosed
    obtain ⟨hreturns, hserved⟩ := hclosed
    refine (shrinks_leaveRoomWait _).served (hserved (u.returns.filter fun r => !r.inFlight) fun r hr => ?_)
    obtain ⟨hr, hflight⟩ := List.mem_filter.mp hr
    obtain ⟨hmem, hne | hflight'⟩ := hreturns r hr
    · exact ⟨hmem, hne⟩
    · rw [hflight'] at hflight
      cases hflight
  · exact hsettle _ ((shrinks_silence d s).served hs)

/-- A FETCH that is taken waits for a station that has just replied (R44, R63, R78). -/
theorem served_taken {x : SendEntry} (hs : Served s) (hx : s.inFlightEntry = some x) : Served ((s.bookReply x.dest).entryTaken x).1 := by
  have hbooked := (shrinks_bookReply x.dest s).served hs
  have hleaves : Served (s.bookReply x.dest).removeInFlight := (shrinks_filterSend _ _).served hbooked
  obtain ⟨hopen, hself⟩ := hs.2.1 x (List.mem_of_find?_eq_some hx)
  have hanswers : Answers ((s.bookReply x.dest).reachOf x.dest) := by
    rw [State.bookReply, State.reachOf_setReach_same, if_neg hself]
    unfold Open at hopen
    cases h : (s.reachOf x.dest).state <;> simp_all [Answers, ReachEntry.alive]
  unfold State.entryTaken
  split
  · rename_i addr length landing k _
    obtain ⟨hslots, hsend, hreturns, hselves⟩ := hleaves
    refine ⟨fun i hi => ?_, hsend, hreturns, hselves⟩
    rw [quiet_fst, State.allocate, State.slot_setSlot] at hi ⊢
    split
    · exact hanswers
    · rename_i hne
      rw [if_neg hne] at hi
      exact hslots i hi
  · exact hleaves
  · exact hleaves

theorem eitherOrder_swap (first : Bool) (f g : State → Effect) (s : State) : eitherOrder first f g s = eitherOrder (!first) g f s := by
  cases first <;> rfl

/-- What a CONTAIN that closes `d` and contains this station has left of `s` at any point: the entries of the others, and nothing new that waits. -/
structure Narrows (d : Station) (s t : State) : Prop where
  reach : ∀ k, k ≠ d → t.reachOf k = s.reachOf k
  strap : t.strap = s.strap
  slots : ∀ i, (t.slot i).state = .holding → (s.slot i).state = .holding
  send : ∀ x ∈ t.sendQueue, x ∈ s.sendQueue
  returns : ∀ r ∈ t.returns, r ∈ s.returns

variable {d : Station}

theorem Narrows.same {u : State} (h : Narrows d s t) (hreach : u.reach = t.reach) (hstrap : u.strap = t.strap)
    (hslots : ∀ i, (u.slot i).state = .holding → (t.slot i).state = .holding) (hsend : ∀ x ∈ u.sendQueue, x ∈ t.sendQueue)
    (hreturns : ∀ r ∈ u.returns, r ∈ t.returns) : Narrows d s u :=
  ⟨fun k hk => by rw [State.reachOf, hreach]; exact h.reach k hk, hstrap.trans h.strap, fun i hi => h.slots i (hslots i hi),
    fun x hx => h.send x (hsend x hx), fun r hr => h.returns r (hreturns r hr)⟩

theorem Narrows.closeLane (h : Narrows d s t) (status : Status) : Narrows d s (t.closeLane d status).1 :=
  h.same rfl rfl (fun _ => id) (fun _ hx => List.mem_of_mem_filter hx) fun _ => id

theorem Narrows.flushSends (h : Narrows d s t) : Narrows d s t.flushSends.1 :=
  h.same rfl rfl (fun _ => id) (fun _ hx => List.mem_of_mem_filter hx) fun _ => id

theorem Narrows.failAwaiting (h : Narrows d s t) (which : FetchSlot → Bool) (status : Status) : Narrows d s (t.failAwaiting which status).1 := by
  refine h.same rfl rfl (fun i hi => ?_) (fun _ => id) fun _ => id
  rw [State.failAwaiting_slot] at hi
  split at hi
  · cases hi
  · exact hi

theorem Narrows.dropReturns (h : Narrows d s t) : Narrows d s (t.dropReturns d) := by
  rw [State.dropReturns_frame]
  exact h.same rfl rfl (fun _ => id) (fun _ => id) fun _ hr => List.mem_of_mem_filter hr

theorem Narrows.stopEngine (h : Narrows d s t) : Narrows d s t.stopEngine := by
  rcases t.stopEngine_spec with ⟨-, he⟩ | ⟨-, he⟩ <;> rw [he]
  · exact h
  · exact h.same rfl rfl (fun _ => id) (fun _ => id) fun _ => id

theorem narrows_halting (d : Station) (room : Bool) (addr : Word) (length : Nat) (s : State) : Narrows d s (halting s d room addr length) := by
  have hset : ∀ (u : State) (x : ReachEntry), Narrows d s u → Narrows d s (u.setReach d x) := fun u x hu =>
    ⟨fun k hk => by rw [State.reachOf_setReach, if_neg hk]; exact hu.reach k hk, hu.strap, hu.slots, hu.send, hu.returns⟩
  have hfault : ∀ (u : State) (r : FaultRecord), Narrows d s u → Narrows d s ((u.addFault r).setContained .implicated addr length) := fun u r hu => by
    rcases u.addFault_cases r with ⟨-, he⟩ | ⟨-, he⟩ <;> rw [he] <;> exact hu.same rfl rfl (fun _ => id) (fun _ => id) fun _ => id
  exact hfault _ _ (hset _ _ (hset _ _ ⟨fun _ _ => rfl, rfl, fun _ => id, fun _ => id, fun _ => id⟩))

/-- The CONTAIN that closes its sender and contains this station: the lane, the slots and the RETURNs of the sender go, whichever of the two comes
first (R54, R71, R89). -/
theorem served_haltedBy (room : Bool) (addr : Word) (length : Nat) (hs : Served s) (hno : NoHolding s) (hreturn : NoReturn s)
    (hself : (s.reachOf d).state ≠ .self) : Served (s.haltedBy d room addr length).1 := by
  obtain ⟨laneFirst, slotsFirst, dropFirst, h⟩ := haltedBy_eq s d room addr length
  obtain ⟨-, hsend, hreturns, hselves⟩ := hs
  have hlanes := eitherOrder_brings (first := !laneFirst) (f := State.flushSends) (g := fun u => u.closeLane d .destContained) (P := Narrows d s)
    (Q := fun u => Narrows d s u ∧ ∀ x ∈ u.sendQueue, x.dest ≠ d) (fun _ hu => hu.flushSends)
    (fun u hu => ⟨hu.closeLane _, fun x hx => by simpa using (List.mem_filter.mp hx).2⟩)
    (fun u hu => ⟨hu.1.flushSends, fun x hx => hu.2 x (List.mem_of_mem_filter hx)⟩) (narrows_halting d room addr length s)
  rw [← eitherOrder_swap] at hlanes
  have hslots := eitherOrder_brings (first := slotsFirst) (f := fun u => u.failSlotsFor d .destContained) (g := State.flushSlots)
    (P := fun u => Narrows d s u ∧ ∀ x ∈ u.sendQueue, x.dest ≠ d)
    (Q := fun u => (Narrows d s u ∧ ∀ x ∈ u.sendQueue, x.dest ≠ d) ∧ ∀ i, (u.slot i).state ≠ .awaiting)
    (fun _ hu => ⟨hu.1.failAwaiting _ _, hu.2⟩) (fun _ hu => ⟨⟨hu.1.failAwaiting _ _, hu.2⟩, fun _ => flushSlots_slot⟩)
    (fun _ hu => ⟨⟨hu.1.1.failAwaiting _ _, hu.1.2⟩, fun i hi => hu.2 i (slot_failAwaiting hi).1⟩) hlanes
  have hdropped := eitherOrder_brings (first := !dropFirst) (f := fun u => quiet u.stopEngine) (g := fun u => quiet (u.dropReturns d))
    (P := fun u => (Narrows d s u ∧ ∀ x ∈ u.sendQueue, x.dest ≠ d) ∧ ∀ i, (u.slot i).state ≠ .awaiting)
    (Q := fun u => ((Narrows d s u ∧ ∀ x ∈ u.sendQueue, x.dest ≠ d) ∧ ∀ i, (u.slot i).state ≠ .awaiting) ∧ ∀ r ∈ u.returns, r.requester ≠ d)
    (fun u hu => ?_) (fun u hu => ?_) (fun u hu => ?_) hslots
  · rw [← eitherOrder_swap] at hdropped
    rw [h, Effect.andThen_fst, Effect.andThen_fst, Effect.andThen_fst]
    obtain ⟨⟨⟨hnarrows, hdest⟩, hawaiting⟩, hrequester⟩ := hdropped
    refine ⟨fun i hi => ?_, fun x hx => ?_, fun r hr => ?_, fun k hk => ?_⟩
    · exact absurd (hnarrows.slots i (hi.resolve_left (hawaiting i))) (hno i)
    · rw [hnarrows.reach _ (hdest x hx)]
      exact hsend x (hnarrows.send x hx)
    · rw [hnarrows.reach _ (hrequester r hr)]
      exact hreturns r (hnarrows.returns r hr)
    · rw [State.isSelf, hnarrows.strap] at hk
      have hne : k ≠ d := fun heq => hself (heq ▸ hselves k hk)
      rw [hnarrows.reach k hne]
      exact hselves k hk
  · have hsame : u.stopEngine.sendQueue = u.sendQueue ∧ u.stopEngine.slots = u.slots := by
      rcases u.stopEngine_spec with ⟨-, he⟩ | ⟨-, he⟩ <;> rw [he] <;> exact ⟨rfl, rfl⟩
    refine ⟨⟨hu.1.1.stopEngine, fun x hx => hu.1.2 x (hsame.1 ▸ hx)⟩, fun i => ?_⟩
    rw [quiet_fst, State.slot, hsame.2]
    exact hu.2 i
  · refine ⟨⟨⟨hu.1.1.dropReturns, ?_⟩, ?_⟩, fun r hr => ?_⟩
    · rw [quiet_fst, State.dropReturns_frame]
      exact hu.1.2
    · rw [quiet_fst, State.dropReturns_frame]
      exact hu.2
    · have hr' : r ∈ u.returns.filter fun r => r.inFlight || r.requester != d := by
        rw [quiet_fst, State.dropReturns_frame] at hr
        exact hr
      obtain ⟨hmem, hkeep⟩ := List.mem_filter.mp hr'
      simpa [hreturn r (hu.1.1.returns r hmem)] using hkeep
  · have hsame : u.stopEngine.sendQueue = u.sendQueue ∧ u.stopEngine.slots = u.slots ∧ u.stopEngine.returns = u.returns := by
      rcases u.stopEngine_spec with ⟨-, he⟩ | ⟨-, he⟩ <;> rw [he] <;> exact ⟨rfl, rfl, rfl⟩
    obtain ⟨hqueue, hslots, hrets⟩ := hsame
    refine ⟨⟨⟨hu.1.1.1.stopEngine, fun x hx => hu.1.1.2 x (hqueue ▸ hx)⟩, fun i => ?_⟩, fun r hr => hu.2 r (hrets ▸ hr)⟩
    rw [quiet_fst, State.slot, hslots]
    exact hu.1.2 i

/-! ## The deeds -/

theorem noHolding_of_chain {p : Part} (h : Chain p s e) (hs : NoHolding s) : NoHolding e.1 :=
  h.preserves (fun _ _ hact hs i hi => hs i (Holding.act_holdsOnly hact i hi).1) hs

/-- No deed makes a slot HOLDING. -/
theorem noHolding_deed (h : Deed s t) (hs : NoHolding s) : NoHolding t := by
  cases h with
  | span => exact hs
  | turn => exact hs
  | release => exact noHolding_of_chain (releaseCandidate_chain (p := .close) (by simp)) hs
  | sent => exact noHolding_of_chain (broadcastSent_chain rfl) hs
  | counted =>
    rw [countRound_frame]
    exact hs
  | offline => exact hs
  | hears => exact hs
  | halts d => exact noHolding_of_chain (peerHalts_chain (p := .close) d) hs
  | restarts d => exact noHolding_of_chain (peerRestarts_chain (p := .close) d) hs
  | fault r => exact noHolding_of_chain (Act.chain (p := .close) (.fault r)) hs
  | contained cause addr length hactive hflag =>
    exact noHolding_of_chain (enterContainment_chain (p := .outcome) cause addr length hflag (.inl ⟨rfl, hactive⟩)) hs
  | haltedBy d room addr length _ hactive hflag hself => exact noHolding_of_chain (haltedBy_chain d room addr length rfl hactive hflag hself) hs
  | busy d => exact noHolding_of_chain (raiseFull_chain.quiet_trans (replyBusy_chain (p := .close) d)) hs
  | taken x _ hx => exact noHolding_of_chain ((bookReply_chain (p := .close) x.dest).quiet_trans (entryTaken_chain hx)) hs
  | silent d => exact noHolding_of_chain (noReply_chain (p := .close) d) hs
  | returnLeaves => exact noHolding_of_chain (removeReturn_chain (p := .close)) hs
  | returnSilent d => exact noHolding_of_chain (settleReturn_chain (p := .close) d .void) hs
  | _ => exact hs

theorem served_deed (h : Deed s t) (hs : Served s) (hno : NoHolding s) : Served t := by
  have hsame : ∀ {u : State}, u.reach = s.reach → u.strap = s.strap → u.slots = s.slots → u.sendQueue = s.sendQueue → u.returns = s.returns →
      Served u := fun hreach hstrap hslots hsend hreturns => (shrinks_same hreach hstrap hslots hsend hreturns).served hs
  cases h with
  | release => exact (shrinks_releaseCandidate s).served hs
  | sent =>
    rw [State.broadcastSent_frame]
    exact hsame rfl rfl rfl rfl rfl
  | counted =>
    rw [countRound_frame]
    exact hsame rfl rfl rfl rfl rfl
  | offline =>
    exact (((shrinks_mapSend (f := SendEntry.release) (fun _ => rfl) s).trans (shrinks_releaseReturn _)).trans
      (shrinks_same (t := s.goOffline) rfl rfl rfl rfl rfl)).served hs
  | hears d room => exact (shrinks_setReach (opens_heard _ room)).served hs
  | halts d hmeets => exact served_peerHalts hs hno hmeets
  | restarts d => exact (shrinks_peerRestarts d s).served hs
  | fault r => exact (shrinks_addFault r s).served hs
  | contained cause addr length => exact (shrinks_enterContainment cause addr length s).served hs
  | haltedBy d room addr length hmeets _ _ hself =>
    exact served_haltedBy room addr length hs hno (hmeets.resolve_right fun hd => hself (hs.2.2.2 d hd)) hself
  | books d => exact (shrinks_bookReply d s).served hs
  | stays d status => exact (shrinks_filterSend _ s).served hs
  | busy d =>
    exact ((shrinks_mapSend (f := fun x => { x.release with fullCount := x.fullCount + 1 }) (fun _ => rfl) s).trans (shrinks_replyBusy d _)).served hs
  | released => exact (shrinks_mapSend (f := SendEntry.release) (fun _ => rfl) s).served hs
  | leaves => exact (shrinks_filterSend _ s).served hs
  | taken x _ hx => exact served_taken hs hx
  | silent d hreturn => exact served_noReply hs hno hreturn
  | returnLeaves => exact (shrinks_dropped _ s).served hs
  | returnSilent d => exact served_returnSilent hs hno
  | _ => exact hsame rfl rfl rfl rfl rfl

theorem served_deeds (h : Deeds s t) (hs : Served s) (hno : NoHolding s) : Served t :=
  (keeps_of_deeds (Law := fun s => Served s ∧ NoHolding s) (fun _ _ hd hs => ⟨served_deed hd hs.1 hs.2, noHolding_deed hd hs.2⟩) h ⟨hs, hno⟩).1

/-! ## The other events -/

theorem shrinks_askLanding (k : SlotNo) (a : Access) (s : State) : Shrinks s (s.askLanding k a) := by
  rcases s.askLanding_cases k a with ⟨-, h⟩ | ⟨-, h⟩ <;> rw [h] <;> exact shrinks_same rfl rfl rfl rfl rfl

theorem shrinks_freed (k : SlotNo) (s : State) : Shrinks s (s.setSlot k freeSlot) := shrinks_setSlot fun h => absurd h not_waiting_free

theorem shrinks_decideSlot {k : SlotNo} (taken : Bool) (hk : (s.slot k).state = .holding) : Shrinks s (s.decideSlot k taken).1 := by
  unfold State.decideSlot
  split
  · exact shrinks_freed k s
  split
  · split
    · exact (shrinks_setSlot fun h => by simp [Waiting] at h).trans (shrinks_askLanding k _ _)
    · exact shrinks_freed k s
  split
  · exact shrinks_freed k s
  · exact shrinks_setSlot fun _ => ⟨.inr hk, rfl⟩

theorem shrinks_settleHolder (taken : Bool) (s : State) : Shrinks s (s.settleHolder taken).1 := by
  have hwoken : Shrinks s (s.settleProvisional taken).wakeEngine.1 := by
    unfold State.wakeEngine
    split
    · rw [(State.takeHead_frame _).1]
      exact shrinks_same rfl rfl rfl rfl rfl
    · exact shrinks_same rfl rfl rfl rfl rfl
  rw [State.settleHolder, Effect.andThen_fst]
  split
  · rename_i k hk
    exact hwoken.trans (shrinks_decideSlot taken (by simpa using List.find?_some hk))
  · exact hwoken

theorem shrinks_countRound (s : State) : Shrinks s s.countRound := by
  rw [countRound_frame]
  exact shrinks_same rfl rfl rfl rfl rfl

theorem shrinks_engineGoesOn (s : State) : Shrinks s s.engineGoesOn.1 := by
  unfold State.engineGoesOn
  split
  · exact shrinks_same rfl rfl rfl rfl rfl
  · rw [(State.takeHead_frame _).1]
    exact shrinks_same rfl rfl rfl rfl rfl

theorem shrinks_dropHead (s : State) : Shrinks s s.dropHead := shrinks_same rfl rfl rfl rfl rfl

theorem shrinks_applyFault (x : InboundEntry) (s : State) : Shrinks s (s.applyFault x).1 := by
  have hrecord : ∀ halted, Shrinks s (s.recordFault x halted).1 := fun halted => shrinks_addFault _ s
  unfold State.applyFault
  split
  · split
    · exact (hrecord true).trans (shrinks_same rfl rfl rfl rfl rfl)
    · exact hrecord false
  · split
    · exact hrecord false
    · split
      · exact (hrecord true).trans (shrinks_enterContainment _ _ _ _)
      · exact (hrecord false).trans (shrinks_same rfl rfl rfl rfl rfl)

theorem shrinks_postEnds (x : InboundEntry) (ending : AccessEnd) (s : State) : Shrinks s (s.postEnds x ending).1 := by
  have hnext : ∀ u : State, Shrinks u u.dropHead.engineGoesOn.1 := fun u => (shrinks_dropHead u).trans (shrinks_engineGoesOn _)
  cases ending with
  | ok => exact hnext s
  | error =>
    simp only [State.postEnds]
    split
    · exact (show Shrinks s { s with engine := .stopped } from shrinks_same rfl rfl rfl rfl rfl).trans (shrinks_applyFault x _)
    · exact (shrinks_applyFault x s).trans (hnext _)

theorem shrinks_pathFallsFree (s : State) : Shrinks s s.pathFallsFree := by
  rw [State.pathFallsFree_frame]
  exact shrinks_same rfl rfl rfl rfl rfl

/-- A RETURN joins the list for a requester that is not closed (R106). -/
theorem served_joinReturn {d : Station} (k : SlotNo) (result : FetchResult) (hs : Served s) : Served (s.joinReturn d k result) := by
  rcases s.joinReturn_cases d k result with ⟨-, h⟩ | ⟨hunreachable, hcontained, h⟩ <;> rw [h]
  · exact hs
  · obtain ⟨hslots, hsend, hreturns, hselves⟩ := hs
    refine ⟨hslots, hsend, fun r hr => ?_, hselves⟩
    rcases List.mem_append.mp hr with hr | hr
    · exact hreturns r hr
    · rw [List.mem_singleton.mp hr]
      exact ⟨hunreachable, hcontained⟩

theorem served_fetchEnds (x : InboundEntry) (ending : ReadEnd) (hs : Served s) : Served (s.fetchEnds x ending).1 := by
  have hdropped := (shrinks_dropHead s).served hs
  unfold State.fetchEnds
  split
  · exact (shrinks_engineGoesOn _).served (served_joinReturn _ _ hdropped)
  · exact (shrinks_engineGoesOn _).served hdropped

theorem shrinks_expireFetch (k : SlotNo) (s : State) : Shrinks s (s.expireFetch k).1 := by
  unfold State.expireFetch
  split
  · exact shrinks_same rfl rfl rfl rfl rfl
  split
  · exact shrinks_freed k s
  split
  · rename_i hholding
    exact shrinks_setSlot fun _ => ⟨.inr hholding, rfl⟩
  · exact shrinks_same rfl rfl rfl rfl rfl

theorem shrinks_freeze (s : State) : Shrinks s (s.freeze s.offer) := by
  have h := freeze_offer s
  generalize s.freeze s.offer = t at h ⊢
  cases h with
  | ret older younger r _ hsplit =>
    refine ⟨same_reach rfl, rfl, same_slots rfl, same_send rfl, fun x hx => ?_⟩
    change x ∈ older ++ { r with inFlight := true } :: younger at hx
    rw [hsplit]
    rcases List.mem_append.mp hx with hx | hx
    · exact ⟨x, List.mem_append_left _ hx, rfl⟩
    · rcases List.mem_cons.mp hx with rfl | hx
      · exact ⟨r, by simp, rfl⟩
      · exact ⟨x, by simp [hx], rfl⟩
  | entry older younger y _ hsplit =>
    refine ⟨same_reach rfl, rfl, same_slots rfl, fun x hx => ?_, same_returns rfl⟩
    change x ∈ older ++ y.freeze s.freeSlot? :: younger at hx
    rw [hsplit]
    rcases List.mem_append.mp hx with hx | hx
    · exact ⟨x, List.mem_append_left _ hx, rfl⟩
    · rcases List.mem_cons.mp hx with rfl | hx
      · exact ⟨y, by simp, rfl⟩
      · exact ⟨x, by simp [hx], rfl⟩
  | _ => exact shrinks_same rfl rfl rfl rfl rfl

/-- A request that is admitted names a station that is neither closed nor this one (R170). -/
theorem served_queues {k : RequestKind} {d : Station} (hs : Served s) (hreach : ReachAgrees s) (hdest : s.destination = some d)
    (hroom : s.roomCheck d = none) : Served { s with sendQueue := s.sendQueue ++ [s.port.entry k d] } := by
  obtain ⟨hslots, hsend, hreturns, hselves⟩ := hs
  refine ⟨hslots, fun x hx => ?_, hreturns, hselves⟩
  rcases List.mem_append.mp hx with hx | hx
  · exact hsend x hx
  · rw [List.mem_singleton.mp hx]
    have hself : s.isSelf d = false := by
      unfold State.destination at hdest
      split at hdest
      · split at hdest
        · cases hdest
        · cases hdest
          exact Bool.eq_false_iff.mpr ‹_›
      · cases hdest
    have hopen : Open (s.reachOf d) := by
      unfold State.roomCheck at hroom
      split at hroom
      · cases hroom
      · split at hroom
        · cases hroom
        · exact ⟨‹_›, ‹_›⟩
    exact ⟨hopen, fun h => by rw [(hreach d).1.mp h] at hself; cases hself⟩

/-! ## Every command -/

theorem served_done (h : Served e.1) : Served e.done := h

theorem served_port {port : NodePort} (h : Served s) : Served { s with port := port } := h

theorem served_of_reset (hreach : s.reach = reachReset s.strap) (hslots : s.slots = slotsReset) (hsend : s.sendQueue = []) (hreturns : s.returns = []) :
    Served s := by
  refine ⟨fun i hi => ?_, by simp [hsend], by simp [hreturns], fun d hd => ?_⟩
  · simp [Waiting, State.slot, hslots, slotsReset, freeSlot] at hi
  · rw [Resets.reachOf_of_reset hreach]
    simpa [State.isSelf] using hd

theorem noHolding_of_holds (h : Holding.Holds 0 s) : NoHolding s := fun i hi => by
  have hzero : Holding.holdings s = 0 := Nat.le_zero.mp ((Nat.le_add_left _ _).trans h.2.2)
  rw [Holding.holdings_eq, List.countP_eq_zero] at hzero
  exact hzero i (List.mem_finRange i) (by simpa using hi)

/-- A station that waits for an answer holds nothing for one (R10, R12). -/
theorem served_settleCandidate {ask : Option (Station × Body)} {driven : Option AnswerCode} (o : AnswerOutcome) (hround : RoundAgrees s)
    (hholding : HoldingAgrees s) (hpart : s.takesPart = true) (hphase : s.span.phase = .answer ask driven) (hs : Served s) :
    Served (s.settleCandidate o).1 := by
  cases hdriven : driven with
  | none =>
    have hdrives : drivesTaken (.answer ask driven) = false := by
      rw [hdriven]
      cases ask <;> rfl
    exact served_deeds (settleCandidate_deeds hround o) hs (noHolding_of_holds (Holding.holds_of_phase hholding hpart hphase hdrives))
  | some code =>
    have hnone : s.span.candidate = none := hround.2.2.2.1 (by rw [hphase, hdriven]; simp [receives])
    rw [s.settleCandidate_none o hnone]
    exact hs

theorem served_happens {c : Instr} (h : Happens s c t) (hround : RoundAgrees s) (hreach : ReachAgrees s) (hholding : HoldingAgrees s) (hs : Served s) :
    Served t := by
  have hsame : ∀ {u : State}, u.reach = s.reach → u.strap = s.strap → u.slots = s.slots → u.sendQueue = s.sendQueue → u.returns = s.returns →
      Served u := fun hreach hstrap hslots hsend hreturns => (shrinks_same hreach hstrap hslots hsend hreturns).served hs
  cases h with
  | asserts =>
    exact (((shrinks_mapSend (f := SendEntry.release) (fun _ => rfl) s).trans (shrinks_releaseReturn _)).trans
      (shrinks_same (t := asserted s) rfl rfl rfl rfl rfl)).served hs
  | releases straps => exact served_of_reset rfl rfl rfl rfl
  | restarts port => exact served_of_reset rfl rfl rfl rfl
  | marks => exact (shrinks_freeze s).served hs
  | yields picture hpart hphase =>
    have hno := noHolding_of_holds (Holding.holds_of_phase hholding hpart hphase rfl)
    exact served_done (served_deeds (yields_deeds picture) hs hno)
  | idles =>
    have hended : Served s.endRound := hsame rfl rfl rfl rfl rfl
    exact (shrinks_countRound _).served hended
  | outcome settle sent report _ hpart hhears =>
    have hno := noHolding_of_holds (Holding.holds_of_phase hholding hpart rfl (Holding.drivesTaken_of_hears hhears))
    exact served_done (served_deeds (parcelOutcome_deeds hround hpart report hhears) hs hno)
  | takesReturn asked driven k result _ _ _ _ hawaiting =>
    have hheld : Served (s.setSlot k { s.slot k with state := .holding, held := some result }) :=
      (shrinks_setSlot (f := { s.slot k with state := .holding, held := some result }) fun _ => ⟨.inl hawaiting, rfl⟩).served hs
    exact (shrinks_same rfl rfl rfl rfl rfl).served hheld
  | closes ask driven o hpart hphase =>
    have hsettled := served_settleCandidate o hround hholding hpart hphase hs
    have hheld := (shrinks_settleHolder (o == .good .taken) _).served hsettled
    have hended : Served (closing s o).1 := by
      rw [Holding.closing_fst]
      generalize ((s.settleCandidate o).1.settleHolder (o == .good .taken)).1 = v at hheld ⊢
      exact ((shrinks_same (t := v.endRound) rfl rfl rfl rfl rfl).trans (shrinks_countRound _)).served hheld
    exact served_done hended
  | retries d _ hwaiting => exact (shrinks_setReach (by simp [Opens, Answers, Open, hwaiting])).served hs
  | expires k => exact served_done ((shrinks_expireFetch k s).served hs)
  | writes x rest a ending => exact served_done (((shrinks_pathFallsFree s).trans (shrinks_postEnds x ending _)).served hs)
  | reads x rest a ending => exact served_done (served_fetchEnds x ending ((shrinks_pathFallsFree s).served hs))
  | lands k a status =>
    have hfreed : Served (s.pathFallsFree.endFetch k status).1 := ((shrinks_pathFallsFree s).trans (shrinks_freed k _)).served hs
    exact served_done hfreed
  | frees => exact (shrinks_pathFallsFree s).served hs
  | queues k d port _ _ hdest _ hroom => exact served_port (served_queues (k := k) hs hreach hdest hroom)
  | masks mask =>
    have hmasked : Served (s.applyMask mask).1 := by
      rw [State.applyMask]
      exact hsame rfl rfl rfl rfl rfl
    exact served_port (served_done hmasked)
  | pops record rest => cases record <;> exact hsame rfl rfl rfl rfl rfl
  | _ => exact hsame rfl rfl rfl rfl rfl

/-- Settles O20: an entry of the reach table closes together with what waits for it, and a request, a FETCH taken and a RETURN that joins find theirs
open. -/
theorem closedStationsHaveNothingWaiting : Obligations.ClosedStationsHaveNothingWaiting := by
  intro s t hround hreach hholding hwaits hlanes hstep
  rcases step_happens hstep with rfl | ⟨c, rest, h⟩
  · exact ⟨hwaits, hlanes⟩
  · have hserved : Served s := (served_iff s).mpr ⟨hwaits, hlanes, fun d hd => (hreach d).1.mpr hd⟩
    have hnext := served_happens (s := { s with pending := rest }) h hround hreach hholding hserved
    obtain ⟨hwaits', hlanes', -⟩ := (served_iff t).mp hnext
    exact ⟨hwaits', hlanes'⟩

end Sys2Proof.Lanes
end

section
/-! The outcomes of a round as the span unit takes them (R6 to R10): what call close, the parcel window and a parcel outcome make of the state, said
once in the terms of the claims, and the statements that follow from it. -/

namespace Sys2Proof.Outcomes

open Sys2Proof.Machine Sys2Proof.Safety Sys2Proof.Claims Sys2Proof.Events Sys2Proof.Acts Sys2Proof.Rounds Sys2Proof.RoundLaw Sys2Proof.Words

variable {s t : State} {e : Effect}

/-! ## The model's functions in the terms of the claims -/

theorem countRound_eq (s : State) : s.countRound = counted s := by
  rcases s.countRound_cases with ⟨hstation, h⟩ | ⟨hstation, hcount, h⟩ | ⟨hstation, hcount, h⟩ <;> rw [h, counted]
  · rw [if_neg hstation]
  · rw [if_pos hstation, if_pos hcount]
  · rw [if_pos hstation, if_neg (by omega)]

theorem endRound_eq (s : State) : s.endRound = { s with span := ended s.span } := rfl

theorem heardEntry_eq (x : ReachEntry) (room : Bool) : heardEntry x room = x.heard room := by
  obtain ⟨state, silence, timer⟩ := x
  cases state <;> cases room <;> rfl

theorem bookedEntry_eq (x : ReachEntry) : bookedEntry x = if x.state = .self then x else x.alive := by
  obtain ⟨state, silence, timer⟩ := x
  cases state <;> rfl

theorem hear_eq (s : State) (d : Station) (room : Bool) : s.hear d room = { s with reach := s.reach.set d.val (heardEntry (s.reachOf d) room) } := by
  rw [heardEntry_eq]
  rfl

theorem bookReply_eq (s : State) (d : Station) : s.bookReply d = { s with reach := s.reach.set d.val (bookedEntry (s.reachOf d)) } := by
  rw [bookedEntry_eq]
  rfl

theorem windowFollows_eq (h : Header) : windowFollows h = h.answered := rfl

theorem helloClass_eq (body : Option Body) : helloClass body = announced body := by
  cases body with
  | none => rfl
  | some b => cases b <;> rfl

theorem windowFollows_addressed {h : Header} (hw : windowFollows h = true) : addressedKind h.kind = true := by
  simp only [windowFollows, Bool.and_eq_true] at hw
  exact hw.1.1

theorem windowFollows_of_broadcast {w0 w1 : Word} {words : List Word} (hplain : plain (carried w0 w1 words) = false) :
    windowFollows (readHeader w0 w1) = false := by
  by_contra h
  rw [carried, plain_of_addressed (windowFollows_addressed (Bool.not_eq_false _ ▸ h))] at hplain
  cases hplain

/-! ## What is handed on -/

/-- A change that neither reads nor writes the completion queue and the counter of choices. -/
def Aside (f : State → State) : Prop :=
  ∀ (t : State) (q : List Completion) (n : Nat), f { t with completions := q, choices := n } = { f t with completions := q, choices := n }

theorem Aside.records {f : State → State} (hf : Aside f) (t : State) :
    (f t).completions = t.completions ∧ (f t).choices = t.choices := by
  have h := hf t t.completions t.choices
  exact ⟨(congrArg State.completions h :), (congrArg State.choices h :)⟩

/-- Such a change comes before or after the hand-on alike. -/
theorem done_andThen_aside (e : Effect) {f : State → State} (hf : Aside f) : (e.andThen fun s' => quiet (f s')).done = f e.done := by
  obtain ⟨hcompletions, hchoices⟩ := hf.records e.1
  rw [e.done_frame, hf]
  simp only [Effect.andThen, quiet, Handed.add_none, Effect.done, State.handOn, hcompletions, hchoices]

theorem live_length_le (streams : List (List Group)) : (live streams).length ≤ streams.flatten.length := by
  induction streams with
  | nil => exact le_rfl
  | cons gs rest ih =>
    rw [List.flatten_cons, List.length_append]
    have hcons : live (gs :: rest) = live [gs] ++ live rest := by simp [live, List.filter_cons]; split <;> rfl
    have hgs : (live [gs]).length ≤ gs.length := by
      cases gs with
      | nil => exact le_rfl
      | cons g gs => exact (List.length_filter_le _ _).trans (by simp)
    rw [hcons, List.length_append]
    omega

/-- One group handed on by one block. -/
theorem done_of_group {g : Group} (h : e.2.streams.flatten = [g]) : e.done = { e.1 with completions := g.foldl push e.1.completions } := by
  have hlive : (live e.2.streams).length ≤ 1 := (live_length_le _).trans (by rw [h]; exact le_rfl)
  rw [Effect.done_of_one_block e hlive, h]
  simp

theorem andThen_congr {f g : State → Effect} (h : f e.1 = g e.1) : e.andThen f = e.andThen g := by simp only [Effect.andThen, h]

/-! ## The outcome of a round with callers -/

theorem exec_outcome {settle : Bool} {sent : Option ParcelWords} (hpart : s.takesPart = true) (h : Hears s settle sent) (report : LineReport) :
    exec (.parcelOutcome report) s = .next (s.parcelOutcome settle sent report).done := by
  change execParcelOutcome report s = _
  rcases h with ⟨picture, hpicture, hphase, rfl⟩ | hphase
  · simp only [execParcelOutcome, hpart, hphase, if_neg hpicture]
    rfl
  · simp [execParcelOutcome, hpart, hphase]

theorem hears_of_receives {picture : StationSet} {settle : Bool} (h : Receives s picture settle) : Hears s settle none := by
  obtain ⟨-, ⟨hphase, hpicture⟩ | hphase, -⟩ := h
  · exact .inl ⟨picture, hpicture, hphase, rfl⟩
  · exact .inr hphase

theorem station?_val (n : Station) : station? n.val = some n := dif_pos n.isLt

/-- What the round of station `s` becomes after a good parcel that it has adopted and heard, no candidate of its own being left: the answer window in
which it is asked for `ask`, or the end of a counted round (R10, R12, R157). -/
def goesOn (answered : Bool) (ask : Option (Station × Body)) (s : State) : State :=
  if answered then { s with span := { s.span with phase := .answer ask none } } else counted { s with span := ended s.span }

theorem afterParcel_eq (hcandidate : s.span.candidate = none) (answered : Bool) (ask : Option (Station × Body)) :
    s.afterParcel answered ask = quiet (goesOn answered ask s) := by
  cases answered with
  | true => rfl
  | false =>
    rw [State.afterParcel, if_neg (by simp), s.releaseCandidate_none hcandidate, Effect.quiet_andThen, countRound_eq]
    rfl

theorem aside_goesOn (answered : Bool) (ask : Option (Station × Body)) : Aside (goesOn answered ask) := by
  intro t q n
  cases answered with
  | true => rfl
  | false =>
    simp only [goesOn, counted, Bool.false_eq_true, if_false]
    split
    · split <;> rfl
    · rfl

/-- The station that has taken a good parcel's stamp, before the blocks hear it (R17, R18, R29). -/
def adopted (s : State) (st : Stamp) (n : Station) (body : Option Body) : State :=
  { s with span := good s.span, turn := adopt s.turn st n (announced body) }

/-- A good parcel of another station, or of this station's own, is adopted and consumed (R9, R29). -/
theorem goodParcel_eq {own : Bool} {w0 w1 : Word} {words : List Word} {n : Station} {st : Stamp} (hcarries : Carries w0 w1 n st)
    (hown : own = true ∨ s.strap.toNat ≠ n.val) :
    s.goodParcel own { header0 := w0, header1 := w1, body := words } =
      ((adopted s st n (carried w0 w1 words)).consume n (readHeader w0 w1).room (carried w0 w1 words)).andThen fun s' =>
        s'.broadcastSent.afterParcel (windowFollows (readHeader w0 w1)) (s'.askFor own (readHeader w0 w1) n (carried w0 w1 words)) := by
  obtain ⟨hsender, hstamp⟩ := hcarries
  have hself : (s.goodRound.isSelf n && !own) = false := by
    rcases hown with rfl | hne
    · simp
    · simp [State.isSelf, State.goodRound, hne.symm]
  simp only [State.goodParcel, hsender, station?_val, hstamp, hself, Bool.false_eq_true, if_false, helloClass_eq]
  rfl

/-- The same at a station that receives: nothing of its own is sent, and the round goes on (R10, R12). -/
theorem received {picture : StationSet} {settle : Bool} {w0 w1 : Word} {words : List Word} {n : Station} {st : Stamp}
    (hreceives : Receives s picture settle) (hcarries : Carries w0 w1 n st) (hne : s.strap.toNat ≠ n.val) :
    exec (.parcelOutcome (.intact w0 w1 words)) s =
      .next (goesOn (windowFollows (readHeader w0 w1))
        (if (readHeader w0 w1).dest = s.strap.toNat then (carried w0 w1 words).map fun b => (n, b) else none)
        ((adopted s st n (carried w0 w1 words)).consume n (readHeader w0 w1).room (carried w0 w1 words)).done) := by
  obtain ⟨hpart, -, hcandidate⟩ := id hreceives
  rw [exec_outcome hpart (hears_of_receives hreceives)]
  change Host.Outcome.next (State.goodParcel s false { header0 := w0, header1 := w1, body := words }).done = _
  rw [goodParcel_eq hcarries (.inr hne), ← done_andThen_aside _ (aside_goesOn _ _)]
  generalize hconsumed : State.consume _ _ _ _ = consumed
  refine congrArg (fun e : Effect => Host.Outcome.next e.done) (andThen_congr ?_)
  have hspan : consumed.1.span = good s.span := by rw [← hconsumed, consume_span]; rfl
  have hstrap : consumed.1.strap = s.strap := by rw [← hconsumed, consume_leavesRound _ _ _ _]; rfl
  have hnone : consumed.1.span.candidate = none := by rw [hspan]; exact hcandidate
  rw [State.broadcastSent_none _ hnone, afterParcel_eq hnone]
  simp [State.askFor, hstrap]

/-! ## The turn record after a good parcel -/

theorem countRound_turn (s : State) : s.countRound.turn = s.turn := by
  rcases s.countRound_cases with ⟨-, h⟩ | ⟨-, -, h⟩ | ⟨-, -, h⟩ <;> rw [h]

theorem afterParcel_turn (s : State) (answered : Bool) (ask : Option (Station × Body)) : (s.afterParcel answered ask).1.turn = s.turn := by
  rcases s.afterParcel_cases answered ask with ⟨-, h⟩ | ⟨-, h, -⟩
  · rw [h]
    rfl
  · rw [h, countRound_turn, s.releaseCandidate_frame.1]
    rfl

theorem goodParcel_turn {own : Bool} {w0 w1 : Word} {words : List Word} {n : Station} {st : Stamp} (hcarries : Carries w0 w1 n st)
    (hown : own = true ∨ s.strap.toNat ≠ n.val) :
    (s.goodParcel own { header0 := w0, header1 := w1, body := words }).done.turn = adopt s.turn st n (announced (carried w0 w1 words)) := by
  rw [Controller.done_turn, goodParcel_eq hcarries hown, Effect.andThen_fst, afterParcel_turn, State.broadcastSent_frame]
  change (State.consume _ _ _ _).1.turn = _
  rw [consume_leavesRound _ _ _ _]
  rfl

/-- The same after the outcome of a round in which this station received the parcel, or sent it (R29, R31). -/
theorem outcome_turn {picture : StationSet} {settle : Bool} {w0 w1 : Word} {words : List Word} {n : Station} {st : Stamp}
    (hcarries : Carries w0 w1 n st)
    (hround : Receives s picture settle ∧ s.strap.toNat ≠ n.val ∨
      s.takesPart = true ∧ s.span.phase = .parcel settle (some { header0 := w0, header1 := w1, body := words })) :
    ∃ t, exec (.parcelOutcome (.intact w0 w1 words)) s = .next t ∧ t.turn = adopt s.turn st n (announced (carried w0 w1 words)) := by
  rcases hround with ⟨hreceives, hne⟩ | ⟨hpart, hphase⟩
  · exact ⟨_, exec_outcome hreceives.1 (hears_of_receives hreceives) _, goodParcel_turn hcarries (.inr hne)⟩
  · exact ⟨_, exec_outcome hpart (.inr hphase) _, goodParcel_turn hcarries (.inl rfl)⟩

theorem has_put (set : StationSet) (m n : Station) (b : Bool) :
    StationSet.has (StationSet.put set n b) m = if m = n then b else StationSet.has set m := by
  have hadd : StationSet.has (set ||| StationSet.single n) m = if m = n then true else StationSet.has set m := by
    rw [← StationSet.add, Selector.has_add]
    by_cases h : m = n
    · simp [h]
    · simp [h, Ne.symm h]
  have hremove : StationSet.has (set &&& ~~~StationSet.single n) m = if m = n then false else StationSet.has set m := by
    have hsingle : (StationSet.single n).getLsbD m.val = decide (n = m) := Selector.has_single n m
    rw [StationSet.has, BitVec.getLsbD_and, BitVec.getLsbD_not, hsingle]
    by_cases h : m = n
    · simp [h]
    · simp [h, Ne.symm h, StationSet.has]
  cases b with
  | true => exact hadd
  | false => exact hremove

/-- Settles O23, from what a good parcel adopts and the class step of a HELLO. -/
theorem adoptionOnGoodParcel : Obligations.AdoptionOnGoodParcel := by
  intro s picture settle w0 w1 words n st hcarries hround
  obtain ⟨t, hexec, hturn⟩ := outcome_turn hcarries hround
  refine ⟨t, hexec, by rw [hturn, adopt_settle], by rw [hturn, adopt_repair]; rfl, fun hhigh => ?_, fun hlow => ?_, fun m => ?_⟩
  · rw [hturn, adopt_stamp]
    cases announced (carried w0 w1 words) <;> simp [classStep, grantUpdate, hhigh]
  · rw [hturn, adopt_stamp]
    cases announced (carried w0 w1 words) <;> simp [classStep, grantUpdate, hlow]
  · have hgrant : (grantUpdate st n).high = st.high := by
      unfold grantUpdate
      split <;> rfl
    rw [hturn, adopt_stamp]
    cases announced (carried w0 w1 words) with
    | none => exact congrArg (StationSet.has · m) hgrant
    | some cls =>
      rw [classStep, hgrant, has_put]
      cases cls <;> rfl

/-- Settles O24, since the record after a good parcel depends on the parcel alone. -/
theorem stationsAgreeAfterGoodParcel : Obligations.StationsAgreeAfterGoodParcel := by
  intro s₁ s₂ t₁ t₂ p₁ p₂ f₁ f₂ w0 w1 words n st hcarries hreceives hne hround h₁ h₂
  obtain ⟨t, hexec, hturn₁⟩ := outcome_turn hcarries (.inl ⟨hreceives, hne⟩)
  obtain ⟨t', hexec', hturn₂⟩ := outcome_turn hcarries hround
  cases h₁.symm.trans hexec
  cases h₂.symm.trans hexec'
  have hstamp : t₁.turn.stamp = t₂.turn.stamp := by rw [hturn₁, hturn₂, adopt_stamp, adopt_stamp]
  have hsettle₁ : t₁.turn.settle = false := by rw [hturn₁, adopt_settle]
  have hsettle₂ : t₂.turn.settle = false := by rw [hturn₂, adopt_settle]
  exact ⟨hstamp, hsettle₁, hsettle₂, fun picture => by simp only [grant, hstamp, hsettle₁, hsettle₂]⟩

/-! ## A good parcel that is heard and nothing more -/

/-- Settles O25, from the one good-parcel equation, at a receiver and at the sender. -/
theorem goodParcelIsHeard : Obligations.GoodParcelIsHeard := by
  intro s picture settle w0 w1 words n st hcarries hplain h s'
  have hannounced : announced (carried w0 w1 words) = none := by
    cases hcarried : carried w0 w1 words with
    | none => rfl
    | some b =>
      rw [hcarried] at hplain
      cases b with
      | hello => cases hplain
      | _ => rfl
  have hconsume : (adopted s st n (carried w0 w1 words)).consume n h.room (carried w0 w1 words) = quiet s' := by
    rw [consume_plain hplain, hear_eq, adopted, hannounced]
    rfl
  refine ⟨fun hreceives hne => ?_, fun hpart hphase hsource hwindow => ?_⟩
  · rw [received hreceives hcarries hne, hconsume, Effect.done_quiet]
    rfl
  · have hsent : s'.broadcastSent = s' := by
      unfold State.broadcastSent
      split
      · rename_i hc
        have hc' : s.span.candidate = _ := hc
        simp [State.source?, hc'] at hsource
      · rename_i hc
        have hc' : s.span.candidate = _ := hc
        simp [State.source?, hc'] at hsource
      · rfl
    rw [exec_outcome hpart (.inr hphase)]
    change Host.Outcome.next (State.goodParcel s true { header0 := w0, header1 := w1, body := words }).done = _
    rw [goodParcel_eq hcarries (.inl rfl), hconsume, Effect.quiet_andThen, hsent, hwindow]
    exact congrArg Host.Outcome.next (Effect.done_quiet _)

/-! ## Rounds without a good parcel, and the station's own number in one -/

/-- Settles O29, from the garbled round of a station without a candidate. -/
theorem voidRoundSetsSettle : Obligations.VoidRoundSetsSettle := by
  intro s picture settle report hreceives hreport
  have hround : s.parcelOutcome settle none report = s.voidRound.andThen fun s' => quiet s'.endRound := by
    have hgarbled : s.garbledRound false = s.voidRound.andThen fun s' => quiet s'.endRound := by
      have hnone : s.voidRound.1.span.candidate = none := hreceives.2.2
      simp [State.garbledRound, Effect.andThen, State.releaseCandidate_none _ hnone]
    rcases hreport with rfl | rfl
    · exact hgarbled
    · exact hgarbled
  rw [exec_outcome hreceives.1 (hears_of_receives hreceives), hround, done_andThen_aside _ (fun _ _ _ => rfl)]
  by_cases hseven : s.span.voidRun = 7
  · rw [done_of_group (e := s.voidRound) (g := [.station .spanUnsteady 1 8])
      (by simp [State.voidRound, hseven, Config.unsteadyRun, Handed.streams, Handed.none, notice]), if_pos hseven]
    rfl
  · have hquiet : s.voidRound = quiet s.voidRound.1 := by
      rw [State.voidRound, if_neg (show ¬ s.span.voidRun + 1 = Config.unsteadyRun by simp only [Config.unsteadyRun]; omega)]
      rfl
    rw [hquiet, Effect.done_quiet, if_neg hseven]
    rfl

/-- Settles O31, from the duplicate step of each station state. -/
theorem ownNumberIsADuplicate : Obligations.OwnNumberIsADuplicate := by
  intro s picture settle w0 w1 words n st hreceives hcarries hown told
  obtain ⟨hsender, hstamp⟩ := hcarries
  have hself : (s.goodRound.isSelf n && !false) = true := by simp [State.isSelf, State.goodRound, hown]
  have hround : s.parcelOutcome settle none (.intact w0 w1 words) =
      s.goodRound.duplicate.andThen fun s' => if s'.station = .offline then quiet s' else s'.afterParcel (windowFollows (readHeader w0 w1)) none := by
    change s.goodParcel false { header0 := w0, header1 := w1, body := words } = _
    simp only [State.goodParcel, hsender, station?_val, hstamp, hself, if_true]
    rfl
  rw [exec_outcome hreceives.1 (hears_of_receives hreceives), hround]
  refine ⟨fun hcontained => ?_, fun hcontained => ?_⟩
  · have hduplicate : s.goodRound.duplicate = (s.goodRound.goOffline, wentOffline) := if_neg hcontained
    rw [hduplicate, Effect.andThen, if_pos (by rfl), done_of_group (g := [.station .wentOffline 1 1]) (by rfl)]
    rfl
  · have hduplicate : s.goodRound.duplicate = ({ s with span := { good s.span with callBar := true } }, wentOffline) := if_pos hcontained
    have hgoesOn : (s.goodRound.duplicate.andThen fun s' =>
          if s'.station = .offline then quiet s' else s'.afterParcel (windowFollows (readHeader w0 w1)) none) =
        s.goodRound.duplicate.andThen fun s' => quiet (goesOn (windowFollows (readHeader w0 w1)) none s') := by
      refine andThen_congr ?_
      rw [hduplicate, if_neg (by simp [hcontained])]
      exact afterParcel_eq (s := { s with span := { good s.span with callBar := true } }) hreceives.2.2 _ _
    rw [hgoesOn, done_andThen_aside _ (aside_goesOn _ _), hduplicate, done_of_group (g := [.station .wentOffline 1 1]) (by rfl)]
    cases windowFollows (readHeader w0 w1) with
    | true => rfl
    | false =>
      simp only [goesOn, counted, Bool.false_eq_true, if_false, hcontained]
      rfl

/-! ## Rounds that only count -/

/-- The addressed station's part of an answer close where nothing is held and no entry waits for the engine. -/
theorem settleHolder_idle (taken : Bool) (hinbound : ∀ x ∈ s.inbound, x.provisional = false) (hslots : ∀ k, (s.slot k).state ≠ .holding)
    (hengine : s.engine = .idle → s.inbound = [] ∨ s.station = .contained) : s.settleHolder taken = quiet s := by
  by_cases hidle : s.engine ≠ .idle ∨ s.station = .contained
  · exact s.settleHolder_quiet taken hinbound hslots hidle
  · simp only [not_or, not_not] at hidle
    obtain ⟨hidle, hstation⟩ := hidle
    have hwakes : s.wakeEngine = quiet s := by
      rw [State.wakeEngine, if_pos ⟨hidle, hstation⟩, s.takeHead_nil ((hengine hidle).resolve_right hstation), ← hidle]
    have hnone : s.holdingSlot? = none := by
      rw [State.holdingSlot?, List.find?_eq_none]
      exact fun k _ => by simpa using hslots k
    rw [State.settleHolder, s.settleProvisional_none taken hinbound, hwakes, Effect.quiet_andThen, hnone]

theorem exec_answerClose {ask : Option (Station × Body)} {driven : Option AnswerCode} (hpart : s.takesPart = true)
    (hphase : s.span.phase = .answer ask driven) (hask : ask = none ∨ s.answers = false) (report : AnswerReport) :
    exec (.answerClose report) s = .next (closing s (readAnswer report)).done := by
  change execAnswerClose report s = _
  have : (ask.isSome && s.answers) = false := by
    rcases hask with rfl | h
    · rfl
    · rw [h, Bool.and_false]
  simp only [execAnswerClose, hpart, hphase, this, Bool.false_eq_true, if_false]
  rfl

theorem answers_eq_false (h : s.station = .listening ∨ s.span.callBar = true) : s.answers = false := by
  rcases h with h | h <;> simp [State.answers, h]

/-- Settles O32, from the three rounds in which the blocks hear nothing. -/
theorem roundsThatOnlyCount : Obligations.RoundsThatOnlyCount := by
  refine ⟨fun s owned settle report hpart hphase => ?_, fun s picture settle w0 w1 words hreceives hnames => ?_,
    fun s ask driven hpart hphase => ⟨fun hask hdriven => ?_, fun hquiet hcandidate hinbound hslots hengine report => ?_⟩⟩
  · change execParcelOutcome report s = _
    simp only [execParcelOutcome, hpart, hphase, if_pos, countRound_eq, endRound_eq]
  · have hnone : station? (readHeader w0 w1).sender = none ∨ (readHeader w0 w1).stamp? = none := by
      rcases hnames with h | h | h
      · exact .inl (dif_neg (by omega))
      · exact .inr (by simp [Header.stamp?, station?, Nat.not_lt.mpr h])
      · exact .inr (by simp [Header.stamp?, station?, Nat.not_lt.mpr h])
    have hround : s.parcelOutcome settle none (.intact w0 w1 words) = s.goodRound.afterParcel false none := by
      change s.goodParcel false { header0 := w0, header1 := w1, body := words } = _
      rcases hnone with h | h
      · simp only [State.goodParcel, h]
      · simp only [State.goodParcel, h]
        cases station? (readHeader w0 w1).sender <;> rfl
    rw [exec_outcome hreceives.1 (hears_of_receives hreceives), hround, afterParcel_eq (s := s.goodRound) hreceives.2.2, Effect.done_quiet]
    rfl
  · subst hask hdriven
    change execAnswerWindow s = _
    simp only [execAnswerWindow, hpart, hphase]
  · have hask : ask = none ∨ s.answers = false := hquiet.imp_right answers_eq_false
    rw [exec_answerClose hpart hphase hask, closing, s.settleCandidate_none _ hcandidate, Effect.quiet_andThen,
      settleHolder_idle _ hinbound hslots hengine, Effect.quiet_andThen, Effect.done_quiet, countRound_eq, endRound_eq]

/-! ## Call close -/

theorem self?_of_strap {n : Station} (h : s.strap.toNat = n.val) : s.self? = some n := by
  simp [State.self?, h]

/-- The records of entries that leave with a status are no station notices. -/
theorem foldl_push_records (q : List Completion) (l : List SendEntry) (status : Status) :
    (l.map fun x => x.record status).foldl push q = q ++ l.map fun x => x.record status :=
  foldl_push_of_not_notice _ q fun c hc k => by
    obtain ⟨x, -, rfl⟩ := List.mem_map.mp hc
    rfl

/-- Settles O36, by the source of the candidate that is released. -/
theorem callCloseGrantsOrReleases : Obligations.CallCloseGrantsOrReleases := by
  intro s n picture hpart hphase hstrap p lost
  have hp : s.pictureRead picture = p := by rw [State.pictureRead, self?_of_strap hstrap]; rfl
  have hexec : exec (.callClose picture) s = .next (if s.ownsRound p then s.withPhase (.closed p (s.ownsRound p) s.turn.settle)
      else (s.withPhase (.closed p (s.ownsRound p) s.turn.settle)).releaseCandidate.done) := by
    change execCallClose picture s = _
    simp only [execCallClose, hpart, hphase, hp]
    rfl
  refine ⟨fun hmark hgrant => ?_, fun hyields => ?_⟩
  · have howns : s.ownsRound p = true := by simp [State.ownsRound, hmark, hgrant, self?_of_strap hstrap]
    rw [hexec, howns]
    rfl
  · have howns : s.ownsRound p = false := by
      rcases hyields with h | h
      · simp [State.ownsRound, h]
      · simp [State.ownsRound, self?_of_strap hstrap, h]
    rw [hexec, howns, if_neg (by simp)]
    set u := s.withPhase (.closed p false s.turn.settle) with hu
    have hsource : u.source? = s.source? := rfl
    refine ⟨fun h => ?_, fun h => ?_, fun h => ?_, fun h hstation => ?_, fun h hstation => ?_⟩
    · have hrelease : u.releaseCandidate = quiet u.clearCandidate := by rcases h with h | h <;> simp only [State.releaseCandidate, hsource, h]
      rw [hrelease, Effect.done_quiet]
      rfl
    · have hrelease : u.releaseCandidate = quiet { u.clearCandidate with contain := { u.contain with late := 0 } } := by
        simp only [State.releaseCandidate, hsource, h]
      rw [hrelease, Effect.done_quiet]
      rfl
    · have hrelease : u.releaseCandidate = quiet u.clearCandidate.releaseReturn := by simp only [State.releaseCandidate, hsource, h]
      rw [hrelease, Effect.done_quiet]
      rfl
    · have hrelease : u.releaseCandidate = quiet u.clearCandidate.releaseInFlight := by
        simp only [State.releaseCandidate, hsource, h, if_neg (show ¬ u.station = .contained from hstation)]
      rw [hrelease, Effect.done_quiet]
      rfl
    · have hrelease : u.releaseCandidate = u.clearCandidate.failInFlight := by
        simp only [State.releaseCandidate, hsource, h, if_pos (show u.station = .contained from hstation)]
      rw [hrelease, done_of_group (g := (s.sendQueue.filter (·.inFlight)).map fun x => x.record .localContained) (by rfl), foldl_push_records]
      rfl

/-! ## The words of the parcel window -/

/-- The header that a station sends with its candidate is the one it reads (R7, R183). -/
theorem readHeader_transmission (s : State) (c : Candidate) :
    readHeader (s.transmission c).header0 (s.transmission c).header1 =
      { kind := c.body.kindCode, sender := s.strap.toNat, dest := c.dest.val, room := s.roomFlag, lo := s.turn.stamp.lo
        hp := s.turn.stamp.hp.val, lp := s.turn.stamp.lp.val, high := s.turn.stamp.high } :=
  readHeader_headerWords (by cases c.body <;> simp [Body.kindCode]) s.strap.isLt c.dest.isLt (s.turn.stamp.hp.isLt.trans (by decide))
    (s.turn.stamp.lp.isLt.trans (by decide))

theorem roomFlag_eq (s : State) : s.roomFlag = (decide (s.inbound.length ≤ 12) && s.station != .contained) := by
  have : Config.roomPlaces ≤ s.freePlaces ↔ s.inbound.length ≤ 12 := by
    simp only [Config.roomPlaces, State.freePlaces, Config.inboundCapacity]
    omega
  rw [State.roomFlag, decide_eq_decide.mpr this]

/-- Settles O37, since the header sent is the header read. -/
theorem parcelWindowSendsFrozenBody : Obligations.ParcelWindowSendsFrozenBody := by
  intro s picture settle c hpart hpicture
  have hexec : ∀ {owned}, s.span.phase = .closed picture owned settle →
      exec .parcelWindow s = .next (s.withPhase (.parcel settle (if owned then s.span.candidate.map s.transmission else none))) := by
    intro owned hphase
    change execParcelWindow s = _
    simp only [execParcelWindow, hpart, hphase, if_neg hpicture]
  refine ⟨fun hphase hcandidate => ⟨s.transmission c, ?_, rfl, ?_⟩, hexec⟩
  · rw [hexec hphase, hcandidate]
    rfl
  · rw [readHeader_transmission, roomFlag_eq]

/-! ## A broadcast of this station's own -/

/-- A station sends its own stamp under its own number (R7). -/
theorem transmission_carries (c : Candidate) {n : Station} (hstrap : s.strap.toNat = n.val) :
    Carries (s.transmission c).header0 (s.transmission c).header1 n s.turn.stamp := by
  refine ⟨?_, ?_⟩
  · rw [readHeader_transmission, hstrap]
  · rw [readHeader_transmission, Header.stamp?]
    simp only [station?_val]

/-- The SELF entry hears nothing (R60). -/
theorem hear_self {d : Station} (h : (s.reachOf d).state = .self) (room : Bool) : s.hear d room = s := by
  rw [State.hear, ReachEntry.heard, if_pos h, setReach_reachOf]

theorem reachConsumes_namedBy (s : State) (d : Station) (room : Bool) (body : Option Body) (named : StationSet) :
    (s.reachConsumes d room body).1.namedBy named = s.namedBy named := by
  rw [State.reachConsumes_frame]
  rfl

/-- A parcel that does not name this station is consumed by the reach table alone (R9, R140). -/
theorem consume_unnamed {d : Station} {body : Option Body}
    (hnamed : ∀ mode cause named addr length, body = some (.contain mode cause named addr length) → s.namedBy named = false) {room : Bool} :
    s.consume d room body = s.reachConsumes d room body := by
  rcases consume_cases s d room body with ⟨hboth, -⟩ | ⟨-, h⟩
  · obtain ⟨-, -, -, cause, named, addr, length, rfl, hnames⟩ := haltsBoth_spec hboth
    rw [hnamed _ _ _ _ _ rfl] at hnames
    cases hnames
  · have hquiet : (s.reachConsumes d room body).1.containConsumes d body = quiet (s.reachConsumes d room body).1 := by
      unfold State.containConsumes
      split
      · rw [reachConsumes_namedBy, if_neg (by simp [hnamed _ _ _ _ _ rfl])]
      · rfl
    rw [h, Effect.andThen, hquiet]
    simp

/-- What a station's own HELLO or CONTAIN brings to its reach table and its containment unit: nothing (R60, R140). -/
theorem consume_own {d : Station} {body : Option Body} (hself : (s.reachOf d).state = .self)
    (hnamed : ∀ mode cause named addr length, body = some (.contain mode cause named addr length) → s.namedBy named = false) (room : Bool) :
    s.consume d room body = quiet s := by
  rw [consume_unnamed hnamed]
  unfold State.reachConsumes
  split
  · rw [State.peerRestarts, if_pos hself]
  · rw [hear_self hself, State.peerHalts, if_pos (.inr hself)]
  · rw [hear_self hself, State.peerFaults, if_pos hself]
  · rw [hear_self hself]

/-- A broadcast sent in a good parcel: the station adopts its own stamp, is no longer to send it, and the round ends (R9, R31). -/
theorem outcome_own {u : State} {n : Station} {settle : Bool} {c : Candidate} {report0 report1 : Word} {words : List Word} (hpart : s.takesPart = true)
    (hstrap : s.strap.toNat = n.val) (hself : (s.reachOf n).state = .self) (hphase : s.span.phase = .parcel settle (some (s.transmission c)))
    (hbody : readBody c.body.kindCode (bodyWords c.body) = some c.body) (hbroadcast : addressedKind c.body.kindCode = false)
    (hnamed : ∀ mode cause named addr length, c.body = .contain mode cause named addr length → s.namedBy named = false)
    (hsent : (adopted s s.turn.stamp n (some c.body)).broadcastSent = u) (hnone : u.span.candidate = none) :
    exec (.parcelOutcome (.intact report0 report1 words)) s =
      .next (counted { u with span := ended u.span }) := by
  have hcarried : carried (s.transmission c).header0 (s.transmission c).header1 (bodyWords c.body) = some c.body := by
    rw [carried, readHeader_transmission]
    exact hbody
  have hwindow : windowFollows (readHeader (s.transmission c).header0 (s.transmission c).header1) = false := by
    rw [readHeader_transmission, windowFollows_eq, Header.answered, hbroadcast, Bool.false_and, Bool.false_and]
  have hconsume : ∀ room, (adopted s s.turn.stamp n (some c.body)).consume n room (some c.body) = quiet (adopted s s.turn.stamp n (some c.body)) :=
    consume_own hself fun mode cause named addr length h => hnamed mode cause named addr length (Option.some.inj h)
  rw [exec_outcome hpart (.inr hphase)]
  change Host.Outcome.next (State.goodParcel s true
    { header0 := (s.transmission c).header0, header1 := (s.transmission c).header1, body := bodyWords c.body }).done = _
  rw [goodParcel_eq (transmission_carries c hstrap) (.inl rfl), hcarried, hwindow, hconsume, Effect.quiet_andThen, hsent, afterParcel_eq hnone,
    Effect.done_quiet]
  rfl

/-- Settles O33, from what a broadcast of its own brings to a station. -/
theorem helloIsSentOnce : Obligations.HelloIsSentOnce := by
  intro s n settle report0 report1 words hpart hstrap hself sends
  refine ⟨fun cls policy hsends => ?_, ?_⟩
  · obtain ⟨hcandidate, hphase⟩ := hsends
    have hsent : (adopted s s.turn.stamp n (some (.hello cls policy))).broadcastSent =
        { (adopted s s.turn.stamp n (some (.hello cls policy))).clearCandidate with helloPending := false } := by
      simp [State.broadcastSent, adopted, good, hcandidate]
    have hexec := outcome_own (report0 := report0) (report1 := report1) (words := words) hpart hstrap hself hphase (carried_hello cls policy).1 rfl
      (fun _ _ _ _ _ h => by cases h) hsent rfl
    have hturn : ∀ v : State, (counted v).turn = v.turn := fun v => by rw [← countRound_eq, countRound_turn]
    refine ⟨_, hexec, ?_, ?_, ?_, ?_⟩
    · rw [hturn]
      rfl
    · rw [hturn]
      exact if_pos rfl
    · rw [hturn]
      rfl
    · rw [hturn]
      change StationSet.has (StationSet.put _ n (cls == .high)) n = _
      rw [has_put, if_pos rfl]
      cases cls <;> rfl
  · intro mode cause named addr length hsends hone hlength hnamed left p hpending
    obtain ⟨hcandidate, hphase⟩ := hsends
    have hsent : (adopted s s.turn.stamp n (some (.contain mode cause named addr length))).broadcastSent =
        { (adopted s s.turn.stamp n (some (.contain mode cause named addr length))).clearCandidate with contain := s.contain.sent mode } := by
      simp [State.broadcastSent, adopted, good, hcandidate]
    have hexec := outcome_own (report0 := report0) (report1 := report1) (words := words) hpart hstrap hself hphase
      (carried_contain mode cause named addr length hone hlength).1 rfl (fun _ _ _ _ _ h => by cases h; exact hnamed) hsent rfl
    have hleft : ∀ pending, s.contain.sent mode = { s.contain with pendingContain := pending, late := 0 } →
        exec (.parcelOutcome (.intact report0 report1 words)) s = .next (left pending) := fun pending h => by
      rw [hexec, h]
      rfl
    refine ⟨fun hmode hlate => hleft _ ?_, fun hreported hmode hlate => hleft _ ?_, fun hhalted hmode => hleft _ ?_⟩
    · have : ¬(p.mode = .halted ∧ mode = .reported) := fun ⟨h, h'⟩ => by rw [hmode, h'] at h; cases h
      simp [ContainUnit.sent, hpending, this, hlate]
    · simp [ContainUnit.sent, hpending, hreported, show ¬ s.contain.late = 0#12 from hlate]
    · have hkept : s.contain.sent mode = { s.contain with late := 0 } := by simp [ContainUnit.sent, hpending, hhalted, hmode]
      rw [hkept, ← hpending]

end Sys2Proof.Outcomes
end

section
/-! What the blocks make of a HELLO or a CONTAIN of another station (R67 to R71, R87, R140, R141), with the records that they hand on in any order of
their groups (R176, log 2). -/

namespace Sys2Proof.Broadcasts

open Sys2Proof.Machine Sys2Proof.Safety Sys2Proof.Claims Sys2Proof.Events Sys2Proof.Acts Sys2Proof.Rounds Sys2Proof.Outcomes Sys2Proof.Engine

variable {s t u : State} {e : Effect}

/-! ## Groups of records in any order -/

/-- The groups that are handed on. -/
def groups (h : Handed) : List Group := h.streams.flatten

theorem groups_add (a b : Handed) : (groups (a.add b)).Perm (groups a ++ groups b) := by
  rw [List.perm_iff_count]
  intro g
  simp only [groups, Handed.streams, Handed.add, List.flatten_cons, List.flatten_nil, List.count_append, List.append_nil]
  omega

/-- The groups handed on are these, but for the order and for empty ones. -/
def Tells (h : Handed) (gs : List Group) : Prop := ((groups h).filter fun g => !g.isEmpty).Perm (gs.filter fun g => !g.isEmpty)

theorem Tells.add {a b : Handed} {gs gs' : List Group} (h : Tells a gs) (h' : Tells b gs') : Tells (a.add b) (gs ++ gs') := by
  refine ((groups_add a b).filter _).trans ?_
  rw [List.filter_append, List.filter_append]
  exact h.append h'

theorem Tells.perm {h : Handed} {gs gs' : List Group} (htells : Tells h gs) (hperm : gs.Perm gs') : Tells h gs' :=
  htells.trans (hperm.filter _)

/-- What is handed on joins the completion queue, its groups whole and in some order (R53, R176). -/
theorem appendsGroups_done {gs : List Group} (h : Tells e.2 gs) : AppendsGroups e.1.completions e.done.completions gs := by
  obtain ⟨-, order, hperm, hcompletions⟩ := e.1.handOn_spec e.2.streams
  refine ⟨(order.filter fun g => !g.isEmpty) ++ gs.filter fun g => g.isEmpty, ?_, ?_⟩
  · have hfull : (order.filter fun g => !g.isEmpty).Perm (gs.filter fun g => !g.isEmpty) := (hperm.filter _).trans h
    refine (hfull.append_right _).trans ?_
    have := List.filter_append_perm (fun g : Group => !g.isEmpty) gs
    simpa using this
  · have hempty : (gs.filter fun g => g.isEmpty).flatten = [] := by simp [List.flatten_eq_nil_iff]
    rw [List.flatten_append, hempty, List.append_nil, List.flatten_filter_not_isEmpty]
    exact hcompletions

/-! ## Fields that a counted round leaves -/

@[simp] theorem counted_reach (s : State) : (counted s).reach = s.reach := by rw [← countRound_eq, Controller.countRound_frame]
@[simp] theorem counted_slots (s : State) : (counted s).slots = s.slots := by rw [← countRound_eq, Controller.countRound_frame]
@[simp] theorem counted_sendQueue (s : State) : (counted s).sendQueue = s.sendQueue := by rw [← countRound_eq, Controller.countRound_frame]
@[simp] theorem counted_returns (s : State) : (counted s).returns = s.returns := by rw [← countRound_eq, Controller.countRound_frame]
@[simp] theorem counted_engine (s : State) : (counted s).engine = s.engine := by rw [← countRound_eq, Controller.countRound_frame]
@[simp] theorem counted_path (s : State) : (counted s).path = s.path := by rw [← countRound_eq, Controller.countRound_frame]
@[simp] theorem counted_contain (s : State) : (counted s).contain = s.contain := by rw [← countRound_eq, Controller.countRound_frame]
@[simp] theorem counted_completions (s : State) : (counted s).completions = s.completions := by rw [← countRound_eq, Controller.countRound_frame]
@[simp] theorem counted_choices (s : State) : (counted s).choices = s.choices := by rw [← countRound_eq, Controller.countRound_frame]
@[simp] theorem counted_reachOf (s : State) (d : Station) : (counted s).reachOf d = s.reachOf d := by simp only [State.reachOf, counted_reach]
@[simp] theorem counted_slot (s : State) (k : SlotNo) : (counted s).slot k = s.slot k := by simp only [State.slot, counted_slots]

/-! ## The engine's next access -/

theorem askApply_eq (s : State) (a : Access) : s.askApply a = asks s a := by
  rcases s.askApply_cases a with ⟨hfree, h⟩ | ⟨hbusy, h⟩
  · rw [h, asks, if_pos hfree]
  · rw [h, asks, if_neg hbusy]

/-- What the engine asks for depends on the path alone. -/
theorem asks_congr (hpath : u.path = s.path) (a : Access) : (asks u a).engine = (asks s a).engine ∧ (asks u a).path = (asks s a).path := by
  rw [asks, asks, hpath]
  split
  · exact ⟨rfl, rfl⟩
  · exact ⟨rfl, rfl⟩

/-- The engine with the committed SIGNALs raised takes the access of its head, if it has one (R99 to R101). -/
theorem applyHead_eq (s : State) : s.applyHead = nextHead s := by
  unfold State.applyHead
  cases hinbound : s.inbound with
  | nil => simp [nextHead, headAccess, hinbound]
  | cons x rest =>
    obtain ⟨op, source, provisional⟩ := x
    cases provisional with
    | true => simp [nextHead, headAccess, hinbound]
    | false =>
      cases op with
      | post addr data => simp [nextHead, headAccess, hinbound, askApply_eq, isRead]
      | fetch addr length tag =>
        by_cases hroom : s.returns.length < 8
        · simp [nextHead, headAccess, hinbound, askApply_eq, isRead, Config.returnCapacity, hroom]
        · simp [nextHead, headAccess, hinbound, isRead, Config.returnCapacity, hroom]
      | signal k => simp [nextHead, headAccess, hinbound]

/-! ## A destination that is closed -/

theorem slotFailures_eq (s : State) (d : Station) (status : Status) : (s.failSlotsFor d status).2.fetch = [slotFailures s d status] := by
  refine congrArg (fun g => [g]) (List.filterMap_congr fun k _ => ?_)
  by_cases h : (s.slot k).state = .awaiting ∧ (s.slot k).dest = d
  · rw [if_pos (by simpa using h), if_pos h, ← h.2]
    rfl
  · rw [if_neg (by simpa using h), if_neg h]

theorem tells_failSlotsFor (s : State) (d : Station) (status : Status) : Tells (s.failSlotsFor d status).2 [slotFailures s d status] := by
  have h : (s.failSlotsFor d status).2 = { Handed.none with fetch := [slotFailures s d status] } := by
    rw [← slotFailures_eq]
    rfl
  rw [h]
  exact .refl _

theorem slotsEnd_failSlotsFor (s : State) (d : Station) (status : Status) : SlotsEnd s (s.failSlotsFor d status).1 fun f => f.dest = d := by
  intro i
  rw [State.failSlotsFor, State.failAwaiting_slot]
  exact ⟨fun h => if_pos (by simpa using h), fun h => if_neg (by simpa using h)⟩

theorem slotsEnd_closeDestination (s : State) (d : Station) (status : Status) :
    SlotsEnd s (s.closeDestination d status).1 fun f => f.dest = d := by
  have hslots : (s.closeDestination d status).1.slots = (s.failSlotsFor d status).1.slots := by rw [(s.closeDestination_spec d status).1]
  intro i
  have hslot : (s.closeDestination d status).1.slot i = (s.failSlotsFor d status).1.slot i := by simp only [State.slot, hslots]
  rw [hslot]
  exact slotsEnd_failSlotsFor s d status i

/-- An engine in ROOM_WAIT asks for the read of its head exactly when the return list has gained a place (R101, R103). -/
theorem roomFreed_leaveRoomWait (hengine : u.engine = s.engine) (hpath : u.path = s.path) (hinbound : u.inbound = s.inbound) :
    RoomFreed s u.leaveRoomWait := by
  have hreturns : u.leaveRoomWait.returns = u.returns := by rw [u.leaveRoomWait_frame]
  refine ⟨fun h => ?_, fun a hwait hroom hhead hread => ?_⟩
  · have hstays : u.leaveRoomWait = u := if_neg fun ⟨hwait, hroom⟩ => by
      rw [hreturns] at h
      rcases h with h | h
      · exact h (hengine ▸ hwait)
      · exact absurd hroom (Nat.not_lt.mpr h)
    rw [hstays]
    exact ⟨hengine, hpath⟩
  · rw [hreturns] at hroom
    have hleaves : u.leaveRoomWait = u.applyHead := if_pos ⟨hengine.trans hwait, hroom⟩
    have hnext : nextHead u = asks u a := by
      simp only [nextHead, headAccess_congr hinbound, hhead, hread, true_and, if_neg (Nat.not_le.mpr hroom)]
    rw [hleaves, applyHead_eq, hnext]
    exact asks_congr hpath a

theorem tells_closeDestination (s : State) (d : Station) (status : Status) :
    Tells (s.closeDestination d status).2 [laneRecords status (s.lane d), slotFailures s d status] := by
  rw [(s.closeDestination_spec d status).2, slotFailures_eq]
  exact .refl _

/-! ## A HELLO or a CONTAIN that does not name this station -/

/-- A state with another span unit, and with the completion queue and the counter of choices that the hand-on of `e` leaves. -/
def handedOn (e : Effect) (v : SpanUnit) (a : State) : State :=
  { a with span := v, completions := e.done.completions, choices := e.done.choices }

theorem handedOn_done (e : Effect) (v : SpanUnit) : { e.done with span := v } = handedOn e v e.1 := rfl

section

variable {picture : StationSet} {settle : Bool} {w0 w1 : Word} {words : List Word} {n : Station} {st : Stamp}

/-- What the blocks make of a broadcast of another station, and the end of its round (R9, R10). -/
theorem received_broadcast (hreceives : Receives s picture settle) (hcarries : Carries w0 w1 n st) (hne : s.strap.toNat ≠ n.val)
    (hbroadcast : plain (carried w0 w1 words) = false) :
    exec (.parcelOutcome (.intact w0 w1 words)) s =
      .next (counted { ((adopted s st n (carried w0 w1 words)).consume n (readHeader w0 w1).room (carried w0 w1 words)).done with
        span := ended (good s.span) }) := by
  have hspan : ((adopted s st n (carried w0 w1 words)).consume n (readHeader w0 w1).room (carried w0 w1 words)).1.span = good s.span :=
    consume_span _ _ _ _
  rw [received hreceives hcarries hne, windowFollows_of_broadcast hbroadcast, goesOn, if_neg (by simp), Effect.done_frame]
  exact congrArg (fun v => Host.Outcome.next (counted { (State.consume _ _ _ _).done with span := ended v })) hspan

/-- The same where the reach table alone acts on it. -/
theorem received_unnamed (hreceives : Receives s picture settle) (hcarries : Carries w0 w1 n st) (hne : s.strap.toNat ≠ n.val)
    (hbroadcast : plain (carried w0 w1 words) = false)
    (hnamed : ∀ mode cause named addr length, carried w0 w1 words = some (.contain mode cause named addr length) → s.namedBy named = false)
    (he : (adopted s st n (carried w0 w1 words)).reachConsumes n (readHeader w0 w1).room (carried w0 w1 words) = e) :
    exec (.parcelOutcome (.intact w0 w1 words)) s = .next (counted { e.done with span := ended (good s.span) }) ∧
      { e.done with span := ended (good s.span) } =
        handedOn e (ended (good s.span)) { s with
          turn := adopt s.turn st n (announced (carried w0 w1 words)), sendQueue := e.1.sendQueue
          reach := e.1.reach, slots := e.1.slots, returns := e.1.returns, engine := e.1.engine, path := e.1.path } := by
  have hconsume : (adopted s st n (carried w0 w1 words)).consume n (readHeader w0 w1).room (carried w0 w1 words) = e :=
    (consume_unnamed (s := adopted s st n (carried w0 w1 words)) hnamed).trans he
  refine ⟨by rw [received_broadcast hreceives hcarries hne hbroadcast, hconsume], ?_⟩
  have hframe := State.reachConsumes_frame (adopted s st n (carried w0 w1 words)) n (readHeader w0 w1).room (carried w0 w1 words)
  rw [he] at hframe
  exact (handedOn_done e _).trans ((congrArg (handedOn e (ended (good s.span))) hframe).trans rfl)

end

theorem done_of_none (h : e.2 = .none) : e.done = e.1 := by
  obtain ⟨a, told⟩ := e
  cases h
  exact Effect.done_quiet a

/-- A HELLO makes its sender REACHABLE; unless the entry was UNKNOWN, it ends what waits for an answer of the sender and is told of (R70, R87). -/
theorem peerRestarts_spec {n : Station} (hself : (s.reachOf n).state ≠ .self) :
    (s.peerRestarts n).1 =
        { s with reach := s.reach.set n.val { state := .reachable, silence := 0, timer := .stopped }, slots := (s.peerRestarts n).1.slots } ∧
      ((s.reachOf n).state = .unknown → (s.peerRestarts n).1.slots = s.slots ∧ (s.peerRestarts n).2 = .none) ∧
      ((s.reachOf n).state ≠ .unknown →
        (∀ i, (s.peerRestarts n).1.slot i = if (s.slot i).state = .awaiting ∧ (s.slot i).dest = n then freeSlot else s.slot i) ∧
          Tells (s.peerRestarts n).2 [slotFailures s n .destRestarted, [.station .peerRestarted 1 n.val]]) := by
  by_cases hunknown : (s.reachOf n).state = .unknown
  · have h : s.peerRestarts n = quiet (s.setReach n { state := .reachable, silence := 0, timer := .stopped }) := by
      rw [State.peerRestarts, if_neg hself, if_pos hunknown]
    rw [h]
    exact ⟨rfl, fun _ => ⟨rfl, rfl⟩, fun h => absurd hunknown h⟩
  · have h : s.peerRestarts n = ((s.setReach n { state := .reachable, silence := 0, timer := .stopped }).failSlotsFor n .destRestarted).andThen
        fun v => (v, reachNotice .peerRestarted n) := by
      rw [State.peerRestarts, if_neg hself, if_neg hunknown]
    rw [h]
    refine ⟨rfl, fun h => absurd h hunknown, fun _ => ⟨fun i => ?_, ?_⟩⟩
    · obtain ⟨hends, hstays⟩ := slotsEnd_failSlotsFor (s.setReach n { state := .reachable, silence := 0, timer := .stopped }) n .destRestarted i
      split
      · exact hends ‹_›
      · exact hstays ‹_›
    · refine Tells.add (gs := [slotFailures s n .destRestarted]) (gs' := [[.station .peerRestarted 1 n.val]]) ?_ (.refl _)
      exact tells_failSlotsFor (s.setReach n { state := .reachable, silence := 0, timer := .stopped }) n .destRestarted

/-- Settles O26, from the restart of a peer at the reach table and the fetch table. -/
theorem helloRestartsPeer : Obligations.HelloRestartsPeer := by
  intro s picture settle w0 w1 words n st cls policy hreceives hcarries hne hself hhello
  have hhear : (adopted s st n (carried w0 w1 words)).reachConsumes n (readHeader w0 w1).room (carried w0 w1 words) =
      (adopted s st n (carried w0 w1 words)).peerRestarts n := by
    rw [hhello]
    rfl
  obtain ⟨hexec, hstate⟩ := received_unnamed hreceives hcarries hne (by rw [hhello]; rfl)
    (fun _ _ _ _ _ h => by rw [hhello] at h; cases h) hhear
  obtain ⟨hframe, hunknown, hknown⟩ := peerRestarts_spec (s := adopted s st n (carried w0 w1 words)) hself
  generalize (adopted s st n (carried w0 w1 words)).peerRestarts n = e at *
  have hreach : ∀ d, e.1.reachOf d = if d = n then { state := .reachable, silence := 0, timer := .stopped } else s.reachOf d := fun d => by
    rw [hframe]
    exact State.reachOf_setReach (s := s) n d _
  refine ⟨_, hexec, ?_, ?_, fun d hd => ?_, fun h => ?_, fun h => ?_⟩
  · simp only [counted_reach, counted_slots, counted_completions, counted_choices]
    have hsend : e.1.sendQueue = s.sendQueue := by rw [hframe]; rfl
    have hreturns : e.1.returns = s.returns := by rw [hframe]; rfl
    have hengine : e.1.engine = s.engine := by rw [hframe]; rfl
    have hpath : e.1.path = s.path := by rw [hframe]; rfl
    rw [hsend, hreturns, hengine, hpath, hhello] at hstate
    exact congrArg counted hstate
  · rw [counted_reachOf]
    exact (hreach n).trans (if_pos rfl)
  · rw [counted_reachOf]
    exact (hreach d).trans (if_neg hd)
  · obtain ⟨hslots, htells⟩ := hunknown h
    have hcompletions : e.1.completions = s.completions := by rw [hframe]; rfl
    rw [counted_slots, counted_completions, done_of_none htells]
    exact ⟨hslots, hcompletions⟩
  · obtain ⟨hslots, htells⟩ := hknown h
    refine ⟨fun i => ?_, ?_⟩
    · rw [counted_slot]
      exact hslots i
    · rw [counted_completions]
      have hcompletions : e.1.completions = s.completions := by rw [hframe]; rfl
      exact hcompletions ▸ appendsGroups_done htells

/-! ## A peer that halts -/

theorem heard_silence {x : ReachEntry} (hself : x.state ≠ .self) (room : Bool) : (x.heard room).silence = 0 := by
  rw [ReachEntry.heard, if_neg hself, ReachEntry.room]
  split <;> rfl

/-- An entry that has a sign of life and then becomes CONTAINED (R62, R67, R68). -/
theorem setReach_halted {x y : ReachEntry} {n : Station} (hy : y.silence = 0) :
    (s.setReach n x).setReach n { y with state := .contained, timer := .stopped } = s.setReach n haltedEntry := by
  rw [State.setReach, State.setReach, State.setReach, Vector.set_set, hy]
  rfl

theorem state_heard {x : ReachEntry} (room : Bool) : ((x.heard room).state = .contained ↔ x.state = .contained) ∧
    ((x.heard room).state = .self ↔ x.state = .self) := by
  rw [ReachEntry.heard_state]
  cases x.state <;> cases room <;> simp

/-- A peer that halts after a sign of life: its entry is closed with what waits for it, and PEER_HALTED is told (R67, R68, R71). -/
theorem peerHalts_alive {x : ReachEntry} {n : Station} (hcontained : x.state ≠ .contained) (hself : x.state ≠ .self) (hsilence : x.silence = 0) :
    (s.setReach n x).peerHalts n =
      ((s.setReach n haltedEntry).closeDestination n .destContained).andThen fun v => (v, reachNotice .peerHalted n) := by
  rw [State.peerHalts, State.reachOf_setReach_same, if_neg (by simp [hcontained, hself]), setReach_halted hsilence]

theorem hear_peerHalts {n : Station} (room : Bool) (hcontained : (s.reachOf n).state ≠ .contained) (hself : (s.reachOf n).state ≠ .self) :
    (s.hear n room).peerHalts n =
      ((s.setReach n haltedEntry).closeDestination n .destContained).andThen fun v => (v, reachNotice .peerHalted n) :=
  peerHalts_alive ((state_heard room).1.not.mpr hcontained) ((state_heard room).2.not.mpr hself) (heard_silence hself room)

/-- In `t` nothing but what is in flight waits for `d` any more: its lane, its AWAITING slots and its RETURNs of `s` are gone (R71). -/
def Closed (d : Station) (s t : State) : Prop :=
  t.sendQueue = s.sendQueue.filter (fun x => x.dest != d) ∧ SlotsEnd s t (fun f => f.dest = d) ∧
    t.returns = s.returns.filter (fun r => r.inFlight || r.requester != d) ∧ RoomFreed s t

theorem closed_closeDestination (d : Station) (status : Status)
    (hsend : u.sendQueue.filter (fun x => x.dest != d) = s.sendQueue.filter fun x => x.dest != d) (hslots : u.slots = s.slots)
    (hreturns : u.returns = s.returns) (hengine : u.engine = s.engine) (hpath : u.path = s.path) (hinbound : u.inbound = s.inbound) :
    Closed d s (u.closeDestination d status).1 := by
  have hslot : ∀ i, u.slot i = s.slot i := fun i => by rw [State.slot, State.slot, hslots]
  refine ⟨?_, fun i => ?_, ?_, roomFreed_leaveRoomWait hengine hpath hinbound⟩
  · rw [(u.closeDestination_spec d status).1]
    exact hsend
  · rw [← hslot]
    exact slotsEnd_closeDestination u d status i
  · rw [(u.closeDestination_spec d status).1, ← hreturns]

theorem Closed.congr {d : Station} (h : Closed d s t) (hsend : u.sendQueue = t.sendQueue) (hslots : u.slots = t.slots)
    (hreturns : u.returns = t.returns) (hengine : u.engine = t.engine) (hpath : u.path = t.path) : Closed d s u := by
  obtain ⟨hq, hs, hr, hroom⟩ := h
  have hslot : ∀ i, u.slot i = t.slot i := fun i => by rw [State.slot, State.slot, hslots]
  refine ⟨hsend.trans hq, fun i => ?_, hreturns.trans hr, ?_⟩
  · rw [hslot]
    exact hs i
  · rw [RoomFreed, hengine, hpath, hreturns]
    exact hroom

theorem Closed.counted {d : Station} {v : SpanUnit} (h : Closed d s e.1) : Closed d s (counted { e.done with span := v }) :=
  h.congr (counted_sendQueue _) (counted_slots _) (counted_returns _) (counted_engine _) (counted_path _)

theorem reachOf_set_ne {d n : Station} (hd : d ≠ n) (x : ReachEntry) : (s.setReach n x).reachOf d = s.reachOf d := by
  rw [State.reachOf_setReach, if_neg hd]

/-- Only the entry of the station that is closed, or of the sender of a parcel that is heard, changes. -/
theorem closeDestination_reachOf (s : State) (n : Station) (status : Status) (d : Station) : (s.closeDestination n status).1.reachOf d = s.reachOf d := by
  rw [(s.closeDestination_spec n status).1]
  rfl

theorem heardEntry_contained {x : ReachEntry} (h : x.state = .contained) (room : Bool) : heardEntry x room = { x with silence := 0 } := by
  simp [heardEntry, h]

/-- Settles O27, from the closing of a destination. -/
theorem containClosesPeer : Obligations.ContainClosesPeer := by
  intro s picture settle w0 w1 words n st mode cause named addr length hreceives hcarries hne hself hcontain hnamed
  generalize he : (adopted s st n (carried w0 w1 words)).reachConsumes n (readHeader w0 w1).room (carried w0 w1 words) = e
  obtain ⟨hexec, hstate⟩ := received_unnamed hreceives hcarries hne (by rw [hcontain]; rfl)
    (fun _ _ _ _ _ h => by rw [hcontain] at h; cases h; exact hnamed) he
  rw [hcontain] at he hstate
  have hreached : (adopted s st n (some (.contain mode cause named addr length))).reachOf n = s.reachOf n := rfl
  refine ⟨_, hexec, ?_, ?_⟩
  · simp only [counted_reach, counted_slots, counted_sendQueue, counted_returns, counted_engine, counted_path, counted_completions, counted_choices]
    exact congrArg counted hstate
  · cases mode with
    | reported =>
      have he' : e = ((adopted s st n (some (.contain .reported cause named addr length))).hear n (readHeader w0 w1).room, reachNotice .peerFaulted n) :=
        he.symm.trans (if_neg (by rw [State.hear, State.reachOf_setReach_same, (state_heard _).2]; exact hself))
      refine ⟨fun d hd => ?_, fun h => (by cases h), fun h => (by cases h), fun _ => ?_⟩
      · rw [counted_reachOf]
        change e.1.reachOf d = _
        rw [he']
        exact reachOf_set_ne (s := s) hd _
      · have hdone := done_of_group (e := e) (g := [.station .peerFaulted 1 n.val]) (by rw [he']; rfl)
        rw [hdone, he', hear_eq]
        rfl
    | halted =>
      by_cases hcontained : (s.reachOf n).state = .contained
      · have he' : e = quiet ((adopted s st n (some (.contain .halted cause named addr length))).hear n (readHeader w0 w1).room) :=
          he.symm.trans (if_pos (by rw [State.hear, State.reachOf_setReach_same, (state_heard _).1]; exact .inl hcontained))
        refine ⟨fun d hd => ?_, fun _ h => absurd hcontained h, fun _ _ => ?_, fun h => (by cases h)⟩
        · rw [counted_reachOf]
          change e.1.reachOf d = _
          rw [he']
          exact reachOf_set_ne (s := s) hd _
        · rw [he', Effect.done_quiet, hear_eq, hreached, heardEntry_contained hcontained]
          rfl
      · have he' := he.symm.trans (hear_peerHalts (readHeader w0 w1).room hcontained hself)
        have hclosed : Closed n s e.1 := by
          rw [he', Effect.andThen_fst]
          exact closed_closeDestination n .destContained rfl rfl rfl rfl rfl rfl
        refine ⟨fun d hd => ?_, fun _ _ => ?_, fun _ h => absurd h hcontained, fun h => (by cases h)⟩
        · rw [counted_reachOf]
          change e.1.reachOf d = _
          rw [he', Effect.andThen_fst, closeDestination_reachOf]
          exact reachOf_set_ne (s := s) hd _
        · obtain ⟨hsend, hslots, hreturns, hroom⟩ := hclosed.counted (v := ended (good s.span))
          have htells : Tells e.2 [laneRecords .destContained (s.lane n), slotFailures s n .destContained, [.station .peerHalted 1 n.val]] := by
            rw [he']
            exact (tells_closeDestination _ n .destContained).add (gs' := [[.station .peerHalted 1 n.val]]) (.refl _)
          have hcompletions : e.1.completions = s.completions := by
            rw [he', Effect.andThen_fst, (State.closeDestination_spec _ n .destContained).1]
            rfl
          refine ⟨?_, hsend, hslots, hreturns, hroom, ?_⟩
          · rw [counted_reachOf]
            change e.1.reachOf n = _
            rw [he', Effect.andThen_fst, closeDestination_reachOf, State.reachOf_setReach_same]
          · rw [counted_completions]
            exact hcompletions ▸ appendsGroups_done htells

end Sys2Proof.Broadcasts
end

section
/-! The owner of a VOID or ABSENT round (R8, R11, R17, R18, R20, R33): what becomes of its candidate, and the fourth settle collision. -/

namespace Sys2Proof.Collisions

open Sys2Proof.Machine Sys2Proof.Safety Sys2Proof.Claims Sys2Proof.Events Sys2Proof.Acts Sys2Proof.Outcomes Sys2Proof.Broadcasts

variable {s t : State} {e : Effect}

/-- The queue with what is in flight released (R43). -/
def releasedQueue (q : List SendEntry) : List SendEntry := q.map fun x => if x.inFlight then x.release else x

/-- The return list with what is in flight an ordinary member again (R107). -/
def releasedReturns (q : List ReturnEntry) : List ReturnEntry := q.map fun r => { r with inFlight := false }

theorem releasedQueue_twice (q : List SendEntry) : releasedQueue (releasedQueue q) = releasedQueue q := by
  rw [releasedQueue, releasedQueue, List.map_map]
  refine List.map_congr_left fun x _ => ?_
  by_cases h : x.inFlight <;> simp [h]

theorem releasedReturns_twice (q : List ReturnEntry) : releasedReturns (releasedReturns q) = releasedReturns q := by
  rw [releasedReturns, releasedReturns, List.map_map]
  rfl

/-- What becomes of a candidate that is released, by its source (R11, R43, R55, R107, R131). -/
theorem releaseCandidate_eq (s : State) :
    s.releaseCandidate.1 =
      { s with
        span := { s.span with candidate := none }
        sendQueue :=
          if s.source? == some .sendQueue && s.station == .contained then s.sendQueue.filter fun x => !x.inFlight
          else if s.source? == some .sendQueue then releasedQueue s.sendQueue else s.sendQueue
        returns := if s.source? == some .returnList then releasedReturns s.returns else s.returns
        contain := if s.source? == some .contain then { s.contain with late := 0 } else s.contain } := by
  unfold State.releaseCandidate
  split <;> rename_i h
  · by_cases hstation : s.station = .contained
    · rw [if_pos hstation, h, beq_iff_eq.mpr hstation]
      rfl
    · rw [if_neg hstation, h, beq_eq_false_iff_ne.mpr hstation]
      rfl
  all_goals
    rw [h]
    rfl

theorem releaseCandidate_tells (s : State) :
    Tells s.releaseCandidate.2 [if s.source? == some .sendQueue && s.station == .contained then
      (s.sendQueue.filter (·.inFlight)).map fun x => x.record .localContained else []] := by
  unfold State.releaseCandidate
  split <;> rename_i h
  · by_cases hstation : s.station = .contained
    · rw [if_pos hstation, h, beq_iff_eq.mpr hstation]
      exact .refl _
    · rw [if_neg hstation, h, beq_eq_false_iff_ne.mpr hstation]
      exact .refl _
  all_goals
    rw [h]
    exact .refl _

theorem voidRound_tells (s : State) : Tells s.voidRound.2 [if s.span.voidRun = 7 then [.station .spanUnsteady 1 8] else []] := by
  by_cases h : s.span.voidRun = 7
  · rw [if_pos h, State.voidRound, if_pos (by rw [h]; rfl)]
    exact .refl _
  · rw [if_neg h, State.voidRound, if_neg (by simp only [Config.unsteadyRun]; omega)]
    exact .refl _

/-- A settle collision at a station that has joined: the count rises, and at the fourth the station leaves the span (R18, R20). -/
theorem collide_eq (hcount : s.span.settleCollision ≤ 3) (hstation : s.station = .active ∨ s.station = .contained) :
    let fourth : Bool := s.span.settleCollision == 3
    let offline : Bool := fourth && s.station == .active
    (s.collide.1.endRound =
      { s with
        station := if offline then .offline else s.station
        span := { ended s.span with
          settleCollision := s.span.settleCollision + 1, callBar := s.span.callBar || fourth && s.station == .contained }
        sendQueue := if offline then releasedQueue s.sendQueue else s.sendQueue
        returns := if offline then releasedReturns s.returns else s.returns }) ∧
      Tells s.collide.2 [if fourth then [.station .wentOffline 1 1] else []] := by
  intro fourth offline
  by_cases h : s.span.settleCollision = 3
  · have hfourth : fourth = true := beq_iff_eq.mpr h
    have hcollide : s.collide = State.duplicate { s with span := { s.span with settleCollision := s.span.settleCollision + 1 } } := by
      rw [State.collide, h]
      rfl
    rcases hstation with hactive | hcontained
    · have hoffline : offline = true := by simp [offline, hfourth, hactive]
      have hbar : (s.span.callBar || fourth && s.station == .contained) = s.span.callBar := by simp [hactive]
      rw [hbar, hcollide, State.duplicate, if_neg (by simp [hactive]), hfourth, hoffline]
      exact ⟨rfl, .refl _⟩
    · have hoffline : offline = false := by simp [offline, hcontained]
      have hbar : (s.span.callBar || fourth && s.station == .contained) = true := by simp [hfourth, hcontained]
      rw [hbar, hcollide, State.duplicate, if_pos hcontained, hfourth, hoffline]
      exact ⟨rfl, .refl _⟩
  · have hfourth : fourth = false := beq_eq_false_iff_ne.mpr h
    have hcollide : s.collide = quiet { s with span := { s.span with settleCollision := s.span.settleCollision + 1 } } := by
      have hmin : min (s.span.settleCollision + 1) 4 = s.span.settleCollision + 1 := by omega
      rw [State.collide]
      simp only [Config.collisionLimit, hmin]
      rw [if_neg (by omega)]
    have hoffline : offline = false := by simp [offline, hfourth]
    have hbar : (s.span.callBar || fourth && s.station == .contained) = s.span.callBar := by simp [hfourth]
    rw [hbar, hcollide, hfourth, hoffline]
    exact ⟨rfl, .refl _⟩

theorem garbledRound_eq (collides : Bool) (hcount : s.span.settleCollision ≤ 3) (hstation : s.station = .active ∨ s.station = .contained) :
    let fourth : Bool := collides && s.span.settleCollision == 3
    let leaves : Bool := s.source? == some .sendQueue && s.station == .contained
    let offline : Bool := fourth && s.station == .active
    ((s.garbledRound collides).1 =
      { s with
        station := if offline then .offline else s.station
        span := { ended s.span with
          voidRun := bump s.span.voidRun
          settleCollision := if collides then s.span.settleCollision + 1 else s.span.settleCollision
          callBar := s.span.callBar || fourth && s.station == .contained }
        turn := { s.turn with settle := true }
        sendQueue :=
          if leaves then s.sendQueue.filter fun x => !x.inFlight
          else if s.source? == some .sendQueue || offline then releasedQueue s.sendQueue else s.sendQueue
        returns := if s.source? == some .returnList || offline then releasedReturns s.returns else s.returns
        contain := if s.source? == some .contain then { s.contain with late := 0 } else s.contain }) ∧
      Tells (s.garbledRound collides).2
        [if s.span.voidRun = 7 then [.station .spanUnsteady 1 8] else [],
          if leaves then (s.sendQueue.filter (·.inFlight)).map fun x => x.record .localContained else [],
          if fourth then [.station .wentOffline 1 1] else []] := by
  intro fourth leaves offline
  have hrelease := releaseCandidate_eq s.voidRound.1
  have htells := (voidRound_tells s).add (releaseCandidate_tells s.voidRound.1)
  have hsend : (if offline then releasedQueue (if leaves then s.sendQueue.filter fun x => !x.inFlight
        else if s.source? == some .sendQueue then releasedQueue s.sendQueue else s.sendQueue)
      else if leaves then s.sendQueue.filter fun x => !x.inFlight
        else if s.source? == some .sendQueue then releasedQueue s.sendQueue else s.sendQueue) =
      if leaves then s.sendQueue.filter fun x => !x.inFlight
      else if s.source? == some .sendQueue || offline then releasedQueue s.sendQueue else s.sendQueue := by
    cases hoffline : offline with
    | false => simp
    | true =>
      have hleaves : leaves = false := by
        rcases hstation with h | h
        · simp [leaves, h]
        · simp [offline, h] at hoffline
      rw [hleaves]
      cases s.source? == some .sendQueue <;> simp [releasedQueue_twice]
  have hreturns : (if offline then releasedReturns (if s.source? == some .returnList then releasedReturns s.returns else s.returns)
      else if s.source? == some .returnList then releasedReturns s.returns else s.returns) =
      if s.source? == some .returnList || offline then releasedReturns s.returns else s.returns := by
    cases offline <;> cases s.source? == some .returnList <;> simp [releasedReturns_twice]
  rw [← hsend, ← hreturns]
  cases collides with
  | false =>
    have hbar : (s.span.callBar || fourth && s.station == .contained) = s.span.callBar := Bool.or_false _
    have hround : s.garbledRound false = (s.voidRound.1.releaseCandidate.1.endRound, s.voidRound.2.add s.voidRound.1.releaseCandidate.2) := by
      simp [State.garbledRound, Effect.andThen, quiet]
    have htells' := htells.add (b := .none) (gs' := [[]]) (.refl _)
    rw [Handed.add_none] at htells'
    rw [hbar, hround]
    refine ⟨?_, htells'⟩
    rw [hrelease]
    rfl
  | true =>
    obtain ⟨hcollide, hcollideTells⟩ :=
      collide_eq (s := s.voidRound.1.releaseCandidate.1) (by rw [hrelease]; exact hcount) (by rw [hrelease]; exact hstation)
    have hround : s.garbledRound true = (s.voidRound.1.releaseCandidate.1.collide.1.endRound,
        (s.voidRound.2.add s.voidRound.1.releaseCandidate.2).add s.voidRound.1.releaseCandidate.1.collide.2) := by
      simp [State.garbledRound, Effect.andThen, quiet]
    rw [hround]
    have hfourth : (s.voidRound.1.releaseCandidate.1.span.settleCollision == 3) = fourth := by rw [hrelease]; rfl
    rw [hfourth] at hcollideTells
    refine ⟨?_, htells.add hcollideTells⟩
    rw [hcollide, hrelease]
    rfl

/-- Settles O30, from the garbled round of an owner. -/
theorem settleCollisionsEndOffline : Obligations.SettleCollisionsEndOffline := by
  intro s settle w report hpart hphase hlistening hcount hreport collides fourth leaves offline
  have hstation : s.station = .active ∨ s.station = .contained := by
    by_cases hc : s.station = .contained
    · exact .inr hc
    · exact .inl ((station_of_takesPart hpart hc).resolve_left hlistening)
  have hround : s.parcelOutcome settle (some w) report = s.garbledRound collides := by
    rcases hreport with rfl | rfl
    · exact congrArg s.garbledRound (Bool.and_true settle).symm
    · exact congrArg s.garbledRound (Bool.and_false settle).symm
  have hexec := exec_outcome hpart (.inr hphase) report
  rw [hround] at hexec
  obtain ⟨hstate, htells⟩ := garbledRound_eq collides hcount hstation
  generalize s.garbledRound collides = e at hexec hstate htells
  have hcompletions : e.1.completions = s.completions := by rw [hstate]
  refine ⟨e.done, hexec, ?_, hcompletions ▸ appendsGroups_done htells⟩
  exact congrArg (fun u : State => { u with completions := e.done.completions, choices := e.done.choices }) hstate

end Sys2Proof.Collisions
end

section
/-! A CONTAIN that names this station (R140, R141, R144), beside what its mode does to its sender's entry (R67, R69, R71). Where it both closes its
sender and contains this station, the send queue, the fetch table and the apply engine each meet the two in one of two orders (log 3). -/

namespace Sys2Proof.Implication

open Sys2Proof.Machine Sys2Proof.Safety Sys2Proof.Claims Sys2Proof.Events Sys2Proof.Acts Sys2Proof.Rounds Sys2Proof.Outcomes Sys2Proof.Broadcasts
  Sys2Proof.Engine

variable {s t v : State} {e : Effect}

/-! ## The send queue -/

/-- The lane to `n` closed and the queue flushed, in either order: what is in flight to another station stays (R51, R54; log 3). -/
theorem lanes_spec (first : Bool) (n : Station) (v : State) :
    let e := eitherOrder first (fun u => u.closeLane n .destContained) State.flushSends v
    let others := v.sendQueue.filter fun x => x.dest != n
    e.1 = { v with sendQueue := others.filter (·.inFlight) } ∧
      ∃ sends ∈
          [[laneRecords .destContained (v.lane n), sendFlush others],
            [sendFlush v.sendQueue, laneRecords .destContained ((v.lane n).filter (·.inFlight))]],
        Tells e.2 sends := by
  intro e others
  cases first with
  | true => exact ⟨rfl, _, .head _, .refl _⟩
  | false =>
    refine ⟨?_, _, .tail _ (.head _), ?_⟩
    · change { v with sendQueue := (v.sendQueue.filter fun x : SendEntry => x.inFlight).filter fun x : SendEntry => x.dest != n } = _
      rw [List.filter_comm]
    · have hlane : v.flushSends.1.lane n = (v.lane n).filter (·.inFlight) := by
        rw [State.lane, State.lane, List.filter_comm]
        rfl
      rw [← hlane]
      exact .refl _

/-! ## The fetch table -/

theorem slotFlush_eq (v : State) : v.flushSlots.2.fetch = [slotFlush v fun _ => false] := by
  refine congrArg (fun g => [g]) (List.filterMap_congr fun k _ => ?_)
  by_cases h : (v.slot k).state = .awaiting
  · rw [if_pos (by simpa using h), if_pos ⟨h, rfl⟩]
    rfl
  · rw [if_neg (by simpa using h), if_neg fun h' => h h'.1]

theorem flushSlots_tells (v : State) : Tells v.flushSlots.2 [slotFlush v fun _ => false] := by
  have h : v.flushSlots.2 = { Handed.none with fetch := [slotFlush v fun _ => false] } := by
    rw [← slotFlush_eq]
    rfl
  rw [h]
  exact .refl _

theorem slotsEnd_flushSlots (v : State) : SlotsEnd v v.flushSlots.1 fun _ => True := by
  intro i
  rw [State.flushSlots, State.failAwaiting_slot]
  exact ⟨fun h => if_pos (by simpa using h), fun h => if_neg (by simpa using h)⟩

/-- The slots that the closing of `n` leaves to the flush. -/
theorem slotFlush_closed (n : Station) (status : Status) (v : State) :
    slotFlush (v.failSlotsFor n status).1 (fun _ => false) = slotFlush v (· == n) := by
  refine List.filterMap_congr fun k _ => ?_
  rw [State.failSlotsFor, State.failAwaiting_slot]
  by_cases hdest : (v.slot k).dest = n
  · by_cases hstate : (v.slot k).state = .awaiting <;> simp [hdest, hstate, freeSlot]
  · simp [hdest]

/-- The flush leaves no slot for the closing of `n`. -/
theorem slotFailures_flushed (n : Station) (status : Status) (v : State) : slotFailures v.flushSlots.1 n status = [] := by
  rw [slotFailures, List.filterMap_eq_nil_iff]
  exact fun k _ => if_neg fun h => Containment.flushSlots_slot h.1

/-- The AWAITING slots for `n` failed and the table flushed, in either order: no slot is AWAITING any more (R87, R89; log 3). -/
theorem slots_spec (first : Bool) (n : Station) (v : State) :
    let e := eitherOrder first (fun u => u.failSlotsFor n .destContained) State.flushSlots v
    e.1 = { v with slots := e.1.slots } ∧ SlotsEnd v e.1 (fun _ => True) ∧
      ∃ slots ∈ [[slotFailures v n .destContained, slotFlush v (· == n)], [slotFlush v fun _ => false]], Tells e.2 slots := by
  intro e
  cases first with
  | true =>
    refine ⟨rfl, fun i => ?_, _, .head _, ?_⟩
    · obtain ⟨hends, hstays⟩ := slotsEnd_failSlotsFor v n .destContained i
      obtain ⟨hends', hstays'⟩ := slotsEnd_flushSlots (v.failSlotsFor n .destContained).1 i
      change (_ → (v.failSlotsFor n .destContained).1.flushSlots.1.slot i = _) ∧ (_ → (v.failSlotsFor n .destContained).1.flushSlots.1.slot i = _)
      by_cases hn : (v.slot i).state = .awaiting ∧ (v.slot i).dest = n
      · have hfree := hends hn
        have hkept := hstays' (by rw [hfree]; simp [freeSlot])
        exact ⟨fun _ => hkept.trans hfree, fun h => absurd ⟨hn.1, trivial⟩ h⟩
      · have hsame := hstays hn
        rw [hsame] at hends' hstays'
        exact ⟨hends', hstays'⟩
    · exact (tells_failSlotsFor v n .destContained).add (slotFlush_closed n .destContained v ▸ flushSlots_tells _)
  | false =>
    refine ⟨rfl, fun i => ?_, _, .tail _ (.head _), ?_⟩
    · obtain ⟨hends, hstays⟩ := slotsEnd_flushSlots v i
      have hkept : (v.flushSlots.1.failSlotsFor n .destContained).1.slot i = v.flushSlots.1.slot i :=
        (slotsEnd_failSlotsFor v.flushSlots.1 n .destContained i).2 fun h => Containment.flushSlots_slot h.1
      exact ⟨fun h => hkept.trans (hends h), fun h => hkept.trans (hstays h)⟩
    · have hnone := tells_failSlotsFor v.flushSlots.1 n .destContained
      rw [slotFailures_flushed] at hnone
      exact (flushSlots_tells v).add (gs' := []) hnone

/-! ## The apply engine -/

/-- What an engine and a path become when the station is contained: an access in flight goes on, and anything else is withdrawn (R104). -/
def Stopped (s t : State) : Prop :=
  (s.engine = .inAccess → t.engine = .inAccess ∧ t.path = s.path) ∧
    (s.engine ≠ .inAccess → t.engine = .stopped ∧ t.path = { s.path with applyWaiting := none })

theorem stopEngine_frame (v : State) : v.stopEngine = { v with engine := v.stopEngine.engine, path := v.stopEngine.path } := by
  rcases v.stopEngine_spec with ⟨-, h⟩ | ⟨-, h⟩ <;> rw [h]

theorem stopped_stopEngine (v : State) : Stopped v v.stopEngine := by
  rcases v.stopEngine_spec with ⟨hengine, h⟩ | ⟨hengine, h⟩
  · rw [h]
    exact ⟨fun _ => ⟨hengine, rfl⟩, fun h => absurd hengine h⟩
  · rw [h]
    exact ⟨fun h => absurd h hengine, fun _ => ⟨rfl, rfl⟩⟩

/-- The engine in ROOM_WAIT that asks a FREE path for the read for which the dropped RETURNs make room (R101, R103). -/
def Asked (s t : State) : Prop :=
  s.path.state = .free ∧ t.returns.length < 8 ∧ ∃ a, headAccess s = some a ∧ t.engine = .inAccess ∧ t.path = (asks s a).path

theorem Asked.source {u : State} (h : Asked u t) (hpath : u.path = s.path) (hinbound : u.inbound = s.inbound) : Asked s t := by
  obtain ⟨hfree, hroom, a, hhead, hengine, hasks⟩ := h
  exact ⟨hpath ▸ hfree, hroom, a, (headAccess_congr hinbound) ▸ hhead, hengine, hasks.trans (asks_congr hpath a).2⟩

theorem engine_spec (first : Bool) (n : Station) (v : State) :
    let e := eitherOrder first (fun u => quiet (u.dropReturns n)) (fun u => quiet u.stopEngine) v
    e.1 = { v with
        returns := v.returns.filter (fun r => r.inFlight || r.requester != n), engine := e.1.engine, path := e.1.path } ∧
      e.2 = .none ∧ (Stopped v e.1 ∨ v.engine = .roomWait ∧ Asked v e.1) := by
  intro e
  cases first with
  | true =>
    have hstate : e.1 = (v.dropReturns n).stopEngine := rfl
    have hframe : (v.dropReturns n).stopEngine =
        { v with
          returns := v.returns.filter (fun r => r.inFlight || r.requester != n)
          engine := (v.dropReturns n).stopEngine.engine, path := (v.dropReturns n).stopEngine.path } := by
      rw [stopEngine_frame, State.dropReturns_frame]
    refine ⟨hframe, rfl, ?_⟩
    rw [hstate]
    set w : State := { v with returns := v.returns.filter fun r => r.inFlight || r.requester != n } with hw
    change Stopped v w.leaveRoomWait.stopEngine ∨ v.engine = .roomWait ∧ Asked v w.leaveRoomWait.stopEngine
    by_cases hwait : v.engine = .roomWait ∧ w.returns.length < 8
    · have hleaves : w.leaveRoomWait = nextHead w := (if_pos hwait).trans (applyHead_eq w)
      have hbusy : v.engine ≠ .inAccess := by simp [hwait.1]
      rw [hleaves, nextHead]
      split
      · exact .inl ⟨fun h => absurd h hbusy, fun _ => (stopped_stopEngine { w with engine := .idle }).2 (by simp)⟩
      · rename_i a hhead
        rw [if_neg fun h => absurd h.2 (Nat.not_le.mpr hwait.2), asks]
        split
        · rename_i hfree
          obtain ⟨hengine, hpath⟩ := (stopped_stopEngine
            { w with engine := .inAccess, path := { w.path with state := .busy .apply a, lastServed := .apply } }).1 rfl
          refine .inr ⟨hwait.1, hfree, ?_, a, hhead, hengine, hpath.trans ?_⟩
          · rw [stopEngine_frame]
            exact hwait.2
          · rw [asks, if_pos hfree]
        · exact .inl ⟨fun h => absurd h hbusy, fun _ =>
            (stopped_stopEngine { w with engine := .pathWait, path := { w.path with applyWaiting := some a } }).2 (by simp)⟩
    · have hstays : w.leaveRoomWait = w := if_neg hwait
      rw [hstays]
      exact .inl (stopped_stopEngine w)
  | false =>
    have hstate : e.1 = v.stopEngine.dropReturns n := rfl
    have hstops : v.stopEngine.engine ≠ .roomWait := by
      rcases v.stopEngine_spec with ⟨hengine, h⟩ | ⟨hengine, h⟩ <;> rw [h] <;> simp [hengine]
    have hdrops : v.stopEngine.dropReturns n =
        { v.stopEngine with returns := v.stopEngine.returns.filter fun r => r.inFlight || r.requester != n } :=
      State.leaveRoomWait_of_ne _ hstops
    rw [hstate, hdrops]
    refine ⟨?_, rfl, .inl (stopped_stopEngine v)⟩
    rw [stopEngine_frame]

/-! ## What the sender's entry makes of the CONTAIN -/

/-- What is told of the sender: PEER_HALTED where the CONTAIN closes it, PEER_FAULTED where it only reports a fault (R67, R69). -/
def senderTold (s : State) (n : Station) (mode : ContainMode) : List Completion :=
  if closes s n mode then [.station .peerHalted 1 n.val]
  else if mode = .reported ∧ (s.reachOf n).state ≠ .self then [.station .peerFaulted 1 n.val]
  else []

section

variable {n : Station} {room : Bool} {mode : ContainMode} {cause : FaultCause} {named : StationSet} {addr : Word} {length : Nat}

theorem reachConsumes_closes (hcloses : closes s n mode = true) :
    s.reachConsumes n room (some (.contain mode cause named addr length)) =
      ((s.setReach n haltedEntry).closeDestination n .destContained).andThen fun v => (v, reachNotice .peerHalted n) := by
  simp only [closes, Bool.and_eq_true, bne_iff_ne, beq_iff_eq] at hcloses
  obtain ⟨⟨rfl, hcontained⟩, hself⟩ := hcloses
  exact hear_peerHalts room hcontained hself

theorem reachConsumes_hears (hcloses : closes s n mode = false) :
    (s.reachConsumes n room (some (.contain mode cause named addr length))).1 = s.hear n room ∧
      Tells (s.reachConsumes n room (some (.contain mode cause named addr length))).2 [senderTold s n mode] := by
  have hstate : ∀ x, ((s.hear n room).reachOf n).state = x ↔ ((s.reachOf n).heard room).state = x := fun x => by
    rw [State.hear, State.reachOf_setReach_same]
  rw [senderTold, hcloses, if_neg (by simp)]
  cases mode with
  | halted =>
    have hquiet : (s.hear n room).peerHalts n = quiet (s.hear n room) := by
      refine if_pos ?_
      rw [hstate, hstate, (state_heard room).1, (state_heard room).2]
      by_contra h
      rw [not_or] at h
      simp [closes, h.1, h.2] at hcloses
    change ((s.hear n room).peerHalts n).1 = _ ∧ Tells ((s.hear n room).peerHalts n).2 _
    rw [hquiet, if_neg (by simp)]
    exact ⟨rfl, .refl _⟩
  | reported =>
    change ((s.hear n room).peerFaults n).1 = _ ∧ Tells ((s.hear n room).peerFaults n).2 _
    by_cases hself : (s.reachOf n).state = .self
    · rw [State.peerFaults, if_pos (by rw [hstate, (state_heard room).2]; exact hself), if_neg fun h => h.2 hself]
      exact ⟨rfl, .refl _⟩
    · rw [State.peerFaults, if_neg (by rw [hstate, (state_heard room).2]; exact hself), if_pos ⟨rfl, hself⟩]
      exact ⟨rfl, .refl _⟩

/-! ## What the containment unit makes of it -/

theorem addFault_eq (s : State) (r : FaultRecord) : s.addFault r = { s with contain := logged s.contain r } := rfl

/-- The station enters containment at a CONTAIN that names it (R140 first row, R141). -/
def Contains (s : State) : Prop := s.station = .active ∧ s.policy = .halt ∧ s.contain.flag = false

/-- The station records a CONTAIN that names it and goes on (R140). -/
def Records (s : State) : Prop := s.station = .active ∧ s.policy = .report ∨ s.station = .listening

theorem implicationRecorded_iff (s : State) : s.implicationRecorded = true ↔ Records s := by
  simp [State.implicationRecorded, Records, or_comm]

/-- The containment unit after a CONTAIN that names a station and does not contain it (R140, R144). -/
def recordedUnit (s : State) (n : Station) (addr : Word) (length : Nat) : ContainUnit :=
  if s.implicationRecorded then logged s.contain (implicationRecord n addr length false) else s.contain

theorem implicated_open (hopen : ¬ Contains s) :
    s.implicated n addr length = ({ s with contain := recordedUnit s n addr length }, containNotice .postLost n) := by
  have hhalts : s.implicationHalts = false := Bool.eq_false_iff.mpr ((implicationHalts_iff s).not.mpr hopen)
  rw [State.implicated, Effect.andThen]
  simp only [hhalts, Bool.false_eq_true, if_false]
  cases hrecorded : s.implicationRecorded with
  | true => simp [recordedUnit, hrecorded, addFault_eq, quiet]
  | false => simp [recordedUnit, hrecorded, quiet]

theorem consume_open (hnamed : s.namedBy named = true) (hopen : ¬ Contains s) :
    let e := s.reachConsumes n room (some (.contain mode cause named addr length))
    s.consume n room (some (.contain mode cause named addr length)) =
      ({ e.1 with contain := recordedUnit s n addr length }, e.2.add (containNotice .postLost n)) := by
  intro e
  rcases consume_cases s n room (some (.contain mode cause named addr length)) with ⟨hboth, -⟩ | ⟨-, h⟩
  · exact absurd ((implicationHalts_iff s).mp (haltsBoth_spec hboth).2.2.1) hopen
  · have hframe : e.1 = _ := State.reachConsumes_frame s n room (some (.contain mode cause named addr length))
    have hopen' : ¬ Contains e.1 := by rw [hframe]; exact hopen
    have hunit : recordedUnit e.1 n addr length = recordedUnit s n addr length := by rw [hframe]; rfl
    rw [h, Effect.andThen]
    have himplicated : e.1.containConsumes n (some (.contain mode cause named addr length)) = e.1.implicated n addr length :=
      if_pos ((reachConsumes_namedBy s n room _ named).trans hnamed)
    rw [himplicated, implicated_open hopen', hunit]

/-- The containment unit after a CONTAIN that contains the station (R135, R137, R144). -/
def containedUnit (s : State) (n : Station) (addr : Word) (length : Nat) : ContainUnit :=
  { logged s.contain (implicationRecord n addr length true) with
    flag := true, cause := some .implicated, late := 0
    pendingContain := some { mode := .halted, cause := .implicated, named := 0, addr := addr, length := length } }

/-- What a CONTAIN that contains the station makes of it, beside the entry of its sender: what is in flight stays, no slot is AWAITING, and the engine
has stopped, or has first asked for the read that the dropped RETURNs make room for (R54, R89, R104, R135). -/
def ContainedBy (s t : State) (n : Station) (addr : Word) (length : Nat) (asked : Prop) : Prop :=
  t = { s with
      station := .contained, contain := containedUnit s n addr length, sendQueue := t.sendQueue, reach := t.reach, slots := t.slots
      returns := t.returns, engine := t.engine, path := t.path, choices := t.choices } ∧
    SlotsEnd s t (fun _ => True) ∧ (Stopped s t ∨ asked ∧ Asked s t)

/-- A CONTAIN that contains the station and leaves its sender's entry open. -/
theorem consume_contains (hnamed : s.namedBy named = true) (hcontains : Contains s) (hcloses : closes s n mode = false) :
    let e := s.consume n room (some (.contain mode cause named addr length))
    ContainedBy s e.1 n addr length False ∧ e.1.reach = s.reach.set n.val (heardEntry (s.reachOf n) room) ∧ e.1.returns = s.returns ∧
      e.1.sendQueue = s.sendQueue.filter (·.inFlight) ∧
      Tells e.2 [sendFlush s.sendQueue, slotFlush s fun _ => false, senderTold s n mode, [.station .postLost 1 n.val]] := by
  intro e
  obtain ⟨hstate, htells⟩ := reachConsumes_hears (room := room) (cause := cause) (named := named) (addr := addr) (length := length) hcloses
  have hconsume : e = (s.reachConsumes n room (some (.contain mode cause named addr length))).andThen fun u => u.implicated n addr length := by
    rcases consume_cases s n room (some (.contain mode cause named addr length)) with ⟨hboth, -⟩ | ⟨-, h⟩
    · obtain ⟨hcontained, hself, -, _, _, _, _, hbody, -⟩ := haltsBoth_spec hboth
      cases hbody
      simp [closes, hcontained, hself] at hcloses
    · refine h.trans (andThen_congr (if_pos ?_))
      exact (reachConsumes_namedBy s n room _ named).trans hnamed
  have himplicated : (s.hear n room).implicated n addr length =
      Effect.andThen (s.hear n room, containNotice .postLost n) fun u =>
        (u.addFault (implicationRecord n addr length true)).enterContainment .implicated addr length := by
    exact andThen_congr (if_pos ((implicationHalts_iff _).mpr hcontains))
  rw [Effect.andThen, hstate, himplicated] at hconsume
  set w := ((s.hear n room).addFault (implicationRecord n addr length true)).setContained .implicated addr length with hw
  have henter : ((s.hear n room).addFault (implicationRecord n addr length true)).enterContainment .implicated addr length =
      w.stopEngine.flushSends.andThen State.flushSlots := rfl
  rw [Effect.andThen, henter] at hconsume
  have hwstate : w = { s with
      station := .contained, contain := containedUnit s n addr length, reach := s.reach.set n.val (heardEntry (s.reachOf n) room) } := by
    rw [hw, hear_eq]
    rfl
  obtain ⟨engine, path, hstop⟩ : ∃ engine path, w.stopEngine = { w with engine := engine, path := path } := ⟨_, _, stopEngine_frame w⟩
  have hstopped := stopped_stopEngine w
  rw [hstop, hwstate] at hstopped
  rw [hstop, hwstate] at hconsume
  rw [hconsume]
  refine ⟨⟨rfl, slotsEnd_flushSlots _, .inl hstopped⟩, rfl, rfl, rfl, ?_⟩
  have hall := htells.add ((show Tells (containNotice .postLost n) [[.station .postLost 1 n.val]] from .refl _).add
    ((show Tells { Handed.none with sendQueue := [sendFlush s.sendQueue] } [sendFlush s.sendQueue] from .refl _).add (flushSlots_tells s)))
  exact hall.perm (List.perm_append_comm (l₁ := [_, _]) (l₂ := [_, _]))

/-- A HALTED CONTAIN that closes its sender and contains the station (log 3). -/
theorem consume_both (hnamed : s.namedBy named = true) (hcontains : Contains s) (hcloses : closes s n mode = true) :
    let e := s.consume n room (some (.contain mode cause named addr length))
    let others := s.sendQueue.filter fun x => x.dest != n
    ContainedBy s e.1 n addr length (s.engine = .roomWait) ∧ e.1.reach = s.reach.set n.val haltedEntry ∧
      e.1.returns = s.returns.filter (fun r => r.inFlight || r.requester != n) ∧ e.1.sendQueue = others.filter (·.inFlight) ∧
      ∃ sends ∈
          [[laneRecords .destContained (s.lane n), sendFlush others],
            [sendFlush s.sendQueue, laneRecords .destContained ((s.lane n).filter (·.inFlight))]],
        ∃ slots ∈ [[slotFailures s n .destContained, slotFlush s (· == n)], [slotFlush s fun _ => false]],
          Tells e.2 (sends ++ slots ++ [senderTold s n mode, [.station .postLost 1 n.val]]) := by
  intro e others
  obtain ⟨hmode, hcontained, hself⟩ : mode = .halted ∧ (s.reachOf n).state ≠ .contained ∧ (s.reachOf n).state ≠ .self := by
    simpa [closes, and_assoc] using hcloses
  subst hmode
  have hboth : s.haltsBoth n (some (.contain .halted cause named addr length)) = true := by
    simp [State.haltsBoth, hcontained, hself, hnamed, (implicationHalts_iff s).mpr hcontains]
  obtain ⟨first, second, third, h⟩ := haltedBy_eq s n room addr length
  have he : e = s.haltedBy n room addr length := by simp [e, State.consume, hboth]
  have hhalting : halting s n room addr length =
      { s with
        station := .contained, contain := containedUnit s n addr length, reach := s.reach.set n.val haltedEntry
        choices := s.choices + 3 } := by
    have hheard : (State.hear { s with choices := s.choices + 3 } n room).setReach n
        { (State.hear { s with choices := s.choices + 3 } n room).reachOf n with state := .contained, timer := .stopped } =
        State.setReach { s with choices := s.choices + 3 } n haltedEntry := by
      refine setReach_halted ?_
      rw [State.hear, State.reachOf_setReach_same]
      exact heard_silence hself room
    rw [halting]
    dsimp only
    rw [hheard]
    rfl
  rw [h, hhalting] at he
  obtain ⟨hlanes, sends, hsends, hsendTells⟩ := lanes_spec first n { s with
        station := .contained, contain := containedUnit s n addr length, reach := s.reach.set n.val haltedEntry
        choices := s.choices + 3 }
  generalize eitherOrder first _ _ _ = e1 at he hlanes hsendTells
  obtain ⟨hslots, hslotsEnd, slots, hslotsMem, hslotTells⟩ := slots_spec second n e1.1
  obtain ⟨e2, he2⟩ : ∃ e2, e2 = eitherOrder second (fun u => u.failSlotsFor n .destContained) State.flushSlots e1.1 := ⟨_, rfl⟩
  rw [← he2] at hslots hslotsEnd hslotTells
  obtain ⟨hengine, hquiet, hstops⟩ := engine_spec third n e2.1
  obtain ⟨e3, he3⟩ : ∃ e3, e3 = eitherOrder third (fun u => quiet (u.dropReturns n)) (fun u => quiet u.stopEngine) e2.1 := ⟨_, rfl⟩
  rw [← he3] at hengine hquiet hstops
  have hwhole : e = (e3.1, ((e1.2.add e2.2).add e3.2).add (haltingNotices n)) := by
    rw [he, he3, he2]
    rfl
  rw [hquiet, Handed.add_none] at hwhole
  obtain ⟨slots', hslots'⟩ : ∃ x, x = e2.1.slots := ⟨_, rfl⟩
  obtain ⟨engine, hengine'⟩ : ∃ x, x = e3.1.engine := ⟨_, rfl⟩
  obtain ⟨path, hpath'⟩ : ∃ x, x = e3.1.path := ⟨_, rfl⟩
  rw [← hslots', hlanes] at hslots
  rw [← hengine', ← hpath', hslots] at hengine
  rw [hlanes] at hslotsEnd hslotsMem
  rw [hslots] at hslotsEnd hstops
  rw [hengine] at hstops hwhole
  rw [hwhole]
  have htold : senderTold s n .halted = [.station .peerHalted 1 n.val] := if_pos hcloses
  refine ⟨⟨rfl, hslotsEnd, hstops.imp_right fun h => ⟨h.1, h.2.source rfl rfl⟩⟩, rfl, rfl, rfl, sends, hsends, slots, hslotsMem, ?_⟩
  rw [htold]
  exact (hsendTells.add hslotTells).add (gs' := [[.station .peerHalted 1 n.val], [.station .postLost 1 n.val]]) (.refl _)

end

/-! ## The whole outcome -/

theorem counted_of_ne (h : s.station ≠ .listening) : counted s = s := if_neg h

/-- A round whose CONTAIN contains this station ends uncounted, since a CONTAINED station has joined (R157). -/
theorem contained_outcome {n : Station} {addr : Word} {length : Nat} {asked : Prop} {turn : TurnRecord}
    (h : ContainedBy { s with span := good s.span, turn := turn } e.1 n addr length asked)
    (ht : t = counted { e.done with span := ended (good s.span) }) :
    t = { s with
        station := .contained, span := ended (good s.span), turn := turn, sendQueue := t.sendQueue, reach := t.reach, slots := t.slots
        returns := t.returns, engine := t.engine, path := t.path, contain := containedUnit s n addr length, completions := t.completions
        choices := t.choices } ∧
      (t.reach = e.1.reach ∧ t.returns = e.1.returns ∧ t.sendQueue = e.1.sendQueue ∧ t.completions = e.done.completions ∧
        e.1.completions = s.completions) ∧
      SlotsEnd s t (fun _ => True) ∧ (Stopped s t ∨ asked ∧ Asked s t) := by
  obtain ⟨hframe, hslots, hstop⟩ := h
  have hstation : e.1.station = .contained := by rw [hframe]
  have hcompletions : e.1.completions = s.completions := by rw [hframe]
  have ht' : t = { e.done with span := ended (good s.span) } :=
    ht.trans (counted_of_ne (show e.1.station ≠ .listening by rw [hstation]; decide))
  have hstop' : Stopped s e.1 ∨ asked ∧ Asked s e.1 := hstop.imp id fun h => ⟨h.1, h.2.source rfl rfl⟩
  subst ht'
  exact ⟨(handedOn_done e _).trans ((congrArg (handedOn e (ended (good s.span))) hframe).trans rfl), ⟨rfl, rfl, rfl, rfl, hcompletions⟩, hslots,
    hstop'⟩

/-- A round whose CONTAIN leaves this station open ends counted (R157). -/
theorem open_outcome {turn : TurnRecord} {c : ContainUnit} {told : Handed}
    (hframe : e.1 = { ({ s with span := good s.span, turn := turn } : State) with
      sendQueue := e.1.sendQueue, reach := e.1.reach, slots := e.1.slots, returns := e.1.returns, engine := e.1.engine, path := e.1.path })
    (ht : t = counted { Effect.done ({ e.1 with contain := c }, told) with span := ended (good s.span) }) :
    t = counted { s with
        span := ended (good s.span), turn := turn, sendQueue := t.sendQueue, reach := t.reach, slots := t.slots, returns := t.returns
        engine := t.engine, path := t.path, contain := t.contain, completions := t.completions, choices := t.choices } ∧
      (t.contain = c ∧ t.sendQueue = e.1.sendQueue ∧ t.reach = e.1.reach ∧ t.slots = e.1.slots ∧ t.returns = e.1.returns ∧
        t.engine = e.1.engine ∧ t.path = e.1.path ∧ t.completions = (Effect.done ({ e.1 with contain := c }, told)).completions) ∧
      e.1.completions = s.completions := by
  have hcompletions : e.1.completions = s.completions := by rw [hframe]
  have hfields : t.contain = c ∧ t.sendQueue = e.1.sendQueue ∧ t.reach = e.1.reach ∧ t.slots = e.1.slots ∧ t.returns = e.1.returns ∧
      t.engine = e.1.engine ∧ t.path = e.1.path ∧ t.completions = (Effect.done ({ e.1 with contain := c }, told)).completions := by
    rw [ht]
    simp only [counted_contain, counted_sendQueue, counted_reach, counted_slots, counted_returns, counted_engine, counted_path, counted_completions]
    exact ⟨rfl, rfl, rfl, rfl, rfl, rfl, rfl, trivial⟩
  have hchoices : t.choices = (Effect.done ({ e.1 with contain := c }, told)).choices := by rw [ht, counted_choices]
  refine ⟨?_, hfields, hcompletions⟩
  obtain ⟨hcontain, hsend, hreach, hslots, hreturns, hengine, hpath, hqueue⟩ := hfields
  rw [hcontain, hsend, hreach, hslots, hreturns, hengine, hpath, hqueue, hchoices, ht]
  refine congrArg counted ?_
  exact (handedOn_done ({ e.1 with contain := c }, told) _).trans
    ((congrArg (fun u : State => handedOn ({ e.1 with contain := c }, told) (ended (good s.span)) { u with contain := c }) hframe).trans rfl)

/-- Settles O28, by whether the station is contained, and whether the sender is closed. -/
theorem containNamesStation : Obligations.ContainNamesStation := by
  intro s picture settle w0 w1 words n st mode cause named addr length hreceives hcarries hne hcontain hnamed record contained recorded lost told
    others
  have hexec := received_broadcast hreceives hcarries hne (words := words) (by rw [hcontain]; rfl)
  rw [hcontain] at hexec
  have hadopted : adopted s st n (some (.contain mode cause named addr length)) =
      { s with span := good s.span, turn := adopt s.turn st n none } := rfl
  rw [hadopted] at hexec
  by_cases hc : Contains s
  · cases hcloses : closes s n mode with
    | true =>
      obtain ⟨hcontained, hreach, hreturns, hsend, sends, hsends, slots, hslotsMem, htells⟩ :=
        consume_both (s := { s with span := good s.span, turn := adopt s.turn st n none }) (room := (readHeader w0 w1).room)
          (cause := cause) (addr := addr) (length := length) hnamed hc hcloses
      generalize State.consume _ _ _ _ = e at hexec hcontained hreach hreturns hsend htells
      obtain ⟨hstate, hfields, hslots, hstop⟩ := contained_outcome hcontained rfl
      refine ⟨_, hexec, ?_⟩
      generalize counted { e.done with span := ended (good s.span) } = t at hstate hfields hslots hstop
      obtain ⟨hr, hq, hl, hh, hcompletions⟩ := hfields
      have hgroups : AppendsGroups s.completions t.completions _ := hh ▸ hcompletions ▸ appendsGroups_done htells
      refine ⟨?_, ?_, fun h => absurd hc h, fun _ => ⟨hstate, hslots, fun h => ?_, fun h h' => ?_, fun h h' => ?_, fun _ => ⟨?_, ?_⟩, fun h => ?_⟩⟩
      · exact hr.trans hreach
      · exact hq.trans hreturns
      · rcases hstop with hstop | ⟨hwait, -⟩
        · exact hstop.1 h
        · rw [show s.engine = .roomWait from hwait] at h
          cases h
      · rcases hstop with hstop | ⟨hwait, -⟩
        · exact hstop.2 h
        · exact absurd hwait (h'.resolve_left (by simp))
      · rcases hstop with hstop | ⟨-, hasked⟩
        · exact .inl (hstop.2 (by rw [h]; decide))
        · exact .inr hasked
      · exact hl.trans hsend
      · exact ⟨sends, hsends, slots, hslotsMem, hgroups⟩
      · cases h
    | false =>
      obtain ⟨hcontained, hreach, hreturns, hsend, htells⟩ :=
        consume_contains (s := { s with span := good s.span, turn := adopt s.turn st n none }) (room := (readHeader w0 w1).room)
          (cause := cause) (addr := addr) (length := length) hnamed hc hcloses
      generalize State.consume _ _ _ _ = e at hexec hcontained hreach hreturns hsend htells
      obtain ⟨hstate, hfields, hslots, hstop⟩ := contained_outcome hcontained rfl
      refine ⟨_, hexec, ?_⟩
      generalize counted { e.done with span := ended (good s.span) } = t at hstate hfields hslots hstop
      obtain ⟨hr, hq, hl, hh, hcompletions⟩ := hfields
      have hgroups : AppendsGroups s.completions t.completions _ := hh ▸ hcompletions ▸ appendsGroups_done htells
      have hstopped : Stopped s t := hstop.resolve_right fun h => h.1
      refine ⟨?_, ?_, fun h => absurd hc h, fun _ => ⟨hstate, hslots, hstopped.1, fun h _ => hstopped.2 h, fun _ h => ?_, fun h => ?_, fun _ => ⟨?_, ?_⟩⟩⟩
      · exact hr.trans hreach
      · exact hq.trans hreturns
      · cases h
      · cases h
      · exact hl.trans hsend
      · exact hgroups
  · rw [consume_open (s := { s with span := good s.span, turn := adopt s.turn st n none }) hnamed hc] at hexec
    have hunit : recordedUnit { s with span := good s.span, turn := adopt s.turn st n none } n addr length = recordedUnit s n addr length := rfl
    rw [hunit] at hexec
    have hframe := State.reachConsumes_frame { s with span := good s.span, turn := adopt s.turn st n none } n (readHeader w0 w1).room
      (some (.contain mode cause named addr length))
    have hrecords : ∀ r, (r = (if s.implicationRecorded then logged s.contain (record false) else s.contain)) →
        (recorded → r = logged s.contain (record false)) ∧ (¬ recorded → r = s.contain) := fun r hr =>
      ⟨fun h => hr.trans (if_pos ((implicationRecorded_iff s).mpr h)), fun h => hr.trans (if_neg ((implicationRecorded_iff s).not.mpr h))⟩
    have hlost : Tells (containNotice .postLost n) [lost] := .refl _
    generalize ht : counted _ = t at hexec
    refine ⟨t, hexec, ?_⟩
    clear hexec
    cases hcloses : closes s n mode with
    | true =>
      have hreaches := reachConsumes_closes (s := { s with span := good s.span, turn := adopt s.turn st n none }) (room := (readHeader w0 w1).room)
          (cause := cause) (named := named) (addr := addr) (length := length) hcloses
      generalize State.reachConsumes _ _ _ _ = e at hframe hreaches ht
      have htold : told = [.station .peerHalted 1 n.val] := if_pos hcloses
      have htells : Tells e.2 [laneRecords .destContained (s.lane n), slotFailures s n .destContained, told] := by
        rw [hreaches, htold]
        exact (tells_closeDestination _ n .destContained).add (gs' := [[.station .peerHalted 1 n.val]]) (.refl _)
      have hclosed : Closed n s e.1 := by
        rw [hreaches, Effect.andThen_fst]
        exact closed_closeDestination n .destContained rfl rfl rfl rfl rfl rfl
      have hreach : e.1.reach = s.reach.set n.val haltedEntry := by
        rw [hreaches, Effect.andThen_fst, (State.closeDestination_spec _ n .destContained).1]
        rfl
      obtain ⟨hstate, ⟨hcontain', hq, hr, hs, hl, he, hp, hh⟩, hcompletions⟩ := open_outcome (told := e.2.add (containNotice .postLost n))
        (c := recordedUnit s n addr length) hframe ht.symm
      have hgroups := appendsGroups_done (e := ({ e.1 with contain := recordedUnit s n addr length }, e.2.add (containNotice .postLost n))) (htells.add hlost)
      rw [← hh, show State.completions _ = _ from hcompletions] at hgroups
      obtain ⟨hsend, hslots, hreturns, hroom⟩ := hclosed.congr (u := t) hq hs hl he hp
      obtain ⟨hrecorded, hopen⟩ := hrecords t.contain hcontain'
      exact ⟨hr.trans hreach, hreturns, fun _ => ⟨hstate, hrecorded, hopen, fun _ => ⟨hsend, hslots, hroom, hgroups⟩, fun h => by cases h⟩,
        fun h => absurd h hc⟩
    | false =>
      obtain ⟨hhears, htells⟩ :=
        reachConsumes_hears (s := { s with span := good s.span, turn := adopt s.turn st n none }) (room := (readHeader w0 w1).room)
          (cause := cause) (named := named) (addr := addr) (length := length) hcloses
      generalize State.reachConsumes _ _ _ _ = e at hframe hhears htells ht
      have hall := htells.add hlost
      generalize e.2.add (containNotice .postLost n) = told' at hall ht
      obtain ⟨hstate, ⟨hcontain', hq, hr, hs, hl, he, hp, hh⟩, hcompletions⟩ := open_outcome (told := told')
        (c := recordedUnit s n addr length) hframe ht.symm
      have hgroups := appendsGroups_done (e := ({ e.1 with contain := recordedUnit s n addr length }, told')) hall
      rw [← hh, show State.completions _ = _ from hcompletions] at hgroups
      obtain ⟨hrecorded, hopen⟩ := hrecords t.contain hcontain'
      rw [hhears, hear_eq] at hr hl hq hs he hp
      exact ⟨hr, hl, fun _ => ⟨hstate, hrecorded, hopen, fun h => (by cases h), fun _ => ⟨hq, hs, he, hp, hgroups⟩⟩, fun h => absurd h hc⟩

end Sys2Proof.Implication
end

section
/-! The queued requests at the node port (R169 to R171): the checks of R170 in their order, and what an admitted request becomes. -/

namespace Sys2Proof.Requests

open Sys2Proof.Machine Sys2Proof.Safety Sys2Proof.Claims Sys2Proof.Joining

variable {s : State} {k : RequestKind}

/-! ## The checks, group by group -/

theorem refusal_append (a b : List (Bool × Result)) : refusal (a ++ b) = (refusal a).or (refusal b) := by
  simp only [refusal, List.find?_append]
  cases a.find? fun c => c.1 <;> rfl

/-- Check 1 of R170. -/
def stateChecks (s : State) : List (Bool × Result) :=
  [(s.station == .unstarted, .notStarted), (s.station == .contained, .contained), (s.station == .offline, .offline)]

/-- Check 3 of R170. -/
def destCheck (s : State) : List (Bool × Result) := [(decide (12 ≤ field s 0 8 4) || field s 0 8 4 == s.strap.toNat, .badDest)]

/-- Checks 4 to 6 of R170. -/
def fieldChecks (s : State) (k : RequestKind) : List (Bool × Result) :=
  [(k != .signal && !(decide (1 ≤ field s 0 16 5) && decide (field s 0 16 5 ≤ 16)), .badLength),
    (k != .signal && !aligned s.port.header[1] (field s 0 16 5), .badAddress),
    (k == .fetch && !aligned s.port.header[2] (field s 0 16 5), .badAddress),
    (k == .signal && decide (16 ≤ field s 0 24 5), .badSignal)]

/-- Checks 7 to 9 of R170. -/
def roomChecks (s : State) : List (Bool × Result) :=
  [(destState s == some .unreachable, .destUnreachable), (destState s == some .contained, .destContained),
    (decide (32 ≤ s.sendQueue.length), .queueFull), (decide (40 ≤ s.budgetSum), .budgetExhausted)]

theorem admission_eq (s : State) (k : RequestKind) :
    refusal (admission s k) =
      (((refusal (stateChecks s)).or (refusal (destCheck s))).or (refusal (fieldChecks s k))).or (refusal (roomChecks s)) := by
  rw [← refusal_append, ← refusal_append, ← refusal_append]
  rfl

theorem refusal_stateChecks (s : State) : refusal (stateChecks s) = s.refusedState := by
  rw [stateChecks, State.refusedState]
  cases s.station <;> rfl

/-- The destination of a request that passes check 3 (R170). -/
theorem destination_cases (s : State) :
    (s.destination = none ∧ refusal (destCheck s) = some .badDest) ∨
      ∃ d : Station, s.destination = some d ∧ field s 0 8 4 = d.val ∧ refusal (destCheck s) = none := by
  have hdest : s.port.dest = field s 0 8 4 := rfl
  unfold State.destination destCheck station?
  rw [hdest, refusal_cons, refusal_nil]
  by_cases hrange : field s 0 8 4 < 12
  · rw [dif_pos hrange]
    by_cases hself : field s 0 8 4 = s.strap.toNat
    · exact .inl ⟨if_pos (beq_iff_eq.mpr hself), by simp [hself]⟩
    · exact .inr ⟨⟨_, hrange⟩, if_neg (by simpa [State.isSelf] using hself), rfl, by simp [hself, Nat.not_le.mpr hrange]⟩
  · exact .inl ⟨by rw [dif_neg hrange], by simp [Nat.not_lt.mp hrange]⟩

theorem aligned_eq (addr : Word) (length : Nat) : aligned addr length = rangeFits addr length := by
  rw [Bool.eq_iff_iff]
  simp only [aligned, rangeFits, Bool.and_eq_true, decide_eq_true_eq, beq_iff_eq]
  rfl

theorem refusal_fieldChecks (s : State) (k : RequestKind) : refusal (fieldChecks s k) = s.port.fieldCheck k := by
  simp only [fieldChecks, refusal_cons, refusal_nil, aligned_eq]
  cases k with
  | post => rfl
  | fetch =>
    change (if !validLength s.port.length then some Result.badLength else if !rangeFits s.port.remote s.port.length then some Result.badAddress
      else if !rangeFits s.port.landing s.port.length then some Result.badAddress else none) = _
    rw [NodePort.fieldCheck]
    cases rangeFits s.port.remote s.port.length <;> rfl
  | signal =>
    change (if decide (16 ≤ s.port.signalNo) then some Result.badSignal else none) = if s.port.signalNo < 16 then none else some .badSignal
    by_cases h : s.port.signalNo < 16
    · simp [h]
    · simp [h, Nat.not_lt.mp h]

theorem refusal_roomChecks {d : Station} (h : field s 0 8 4 = d.val) : refusal (roomChecks s) = s.roomCheck d := by
  have hstate : destState s = some (s.reachOf d).state := by rw [destState, h, Outcomes.station?_val]; rfl
  simp only [roomChecks, refusal_cons, refusal_nil, hstate, State.roomCheck, beq_iff_eq, Option.some.injEq, decide_eq_true_eq]
  rfl

/-! ## The whole judgement -/

theorem submitQueued_refused {r : Result} (h : refusal (admission s k) = some r) : s.submitQueued k = answered s r := by
  rw [admission_eq, refusal_stateChecks, refusal_fieldChecks] at h
  unfold State.submitQueued
  cases hstate : s.refusedState with
  | some r' => 
    rw [hstate] at h
    cases h
    rfl
  | none =>
    rw [hstate] at h
    rcases destination_cases s with ⟨hdest, hcheck⟩ | ⟨d, hdest, hfield, hcheck⟩
    · rw [hcheck] at h
      cases h
      simp only [hdest]
      rfl
    · rw [hcheck, refusal_roomChecks hfield] at h
      simp only [hdest]
      cases hfields : s.port.fieldCheck k with
      | some r' =>
        rw [hfields] at h
        cases h
        rfl
      | none =>
        rw [hfields] at h
        have hroom : s.roomCheck d = some r := h
        simp only [hroom]
        rfl

theorem submitQueued_admitted {d : Station} (h : refusal (admission s k) = none) (hdest : field s 0 8 4 = d.val) :
    s.submitQueued k = { answered s .accepted with sendQueue := s.sendQueue ++ [s.port.entry k d] } := by
  rw [admission_eq, refusal_stateChecks, refusal_fieldChecks] at h
  simp only [Option.or_eq_none_iff] at h
  obtain ⟨⟨⟨hstate, hcheck⟩, hfields⟩, hroom⟩ := h
  rcases destination_cases s with ⟨-, hcheck'⟩ | ⟨d', hdest', hfield, -⟩
  · rw [hcheck] at hcheck'
    cases hcheck'
  · have : d' = d := Fin.ext (hfield.symm.trans hdest)
    subst this
    rw [refusal_roomChecks hfield] at hroom
    simp only [State.submitQueued, hstate, hdest', hfields, hroom]
    rfl

theorem exec_command (hheld : s.held = false) (k : RequestKind) : exec (command k) s = .next (s.submitQueued k) := by
  have hsubmission : s.submission (fun s => s.submitQueued k) = s.submitQueued k := if_neg (by simp [hheld])
  cases k <;> exact congrArg Host.Outcome.next hsubmission

/-- Settles O53, from the first failing check of the admission list. -/
theorem queuedRequestIsAdmitted : Obligations.QueuedRequestIsAdmitted := by
  intro s k d hheld hdest hadmitted
  rw [exec_command hheld, submitQueued_admitted hadmitted hdest]
  cases k <;> rfl

/-- Settles O54, from the first failing check of the admission list. -/
theorem queuedRequestIsRefused : Obligations.QueuedRequestIsRefused := by
  refine fun s hheld => ⟨fun k r hrefused => ?_, ?_⟩
  · rw [exec_command hheld, submitQueued_refused hrefused]
  · have hsubmission : s.submission State.submitUndefined = s.submitUndefined := if_neg (by simp [hheld])
    change Host.Outcome.next (s.submission State.submitUndefined) = _
    rw [hsubmission, State.submitUndefined, State.refusedState]
    cases s.station <;> rfl

end Sys2Proof.Requests
end

section
/-! The slave window (R166, R168, R173, R179 to R181): what its words read as, what a write does, and what the immediate requests answer. -/

namespace Sys2Proof.Window

open Sys2Proof.Machine Sys2Proof.Safety Sys2Proof.Claims Sys2Proof.Joining Sys2Proof.Words Sys2Proof.Outcomes Sys2Proof.Broadcasts

variable {s t : State}

/-! ## Reads -/

theorem readWindow_header (hheld : s.held = false) (i : Fin 4) : s.readWindow (BitVec.ofNat 8 (4 * i.val)) = s.port.header[i.val] := by
  fin_cases i <;> simp only [State.readWindow, hheld] <;> rfl

theorem readWindow_data (hheld : s.held = false) (i : Fin 16) : s.readWindow (BitVec.ofNat 8 (0x10 + 4 * i.val)) = s.port.data[i.val] := by
  fin_cases i <;> simp only [State.readWindow, hheld] <;> rfl

theorem readWindow_result (hheld : s.held = false) : s.readWindow 0x54 = pack [(s.port.result.code, 0)] := by
  simp only [State.readWindow, hheld]
  rfl

theorem readWindow_resultView (hheld : s.held = false) (i : Fin 4) :
    s.readWindow (BitVec.ofNat 8 (0x58 + 4 * i.val)) = s.port.resultView[i.val] := by
  fin_cases i <;> simp only [State.readWindow, hheld] <;> rfl

theorem readWindow_view (hheld : s.held = false) (i : Fin 4) : s.readWindow (BitVec.ofNat 8 (0x6C + 4 * i.val)) = s.port.view[i.val] := by
  fin_cases i <;> simp only [State.readWindow, hheld] <;> rfl

theorem readWindow_status (hheld : s.held = false) : s.readWindow 0x7C = s.statusWord0 ∧ s.readWindow 0x80 = s.statusWord1 := by
  simp only [State.readWindow, hheld]
  exact ⟨rfl, rfl⟩

theorem readWindow_headerWord {offset : BitVec 8} (hheld : s.held = false) (hword : offset.toNat % 4 = 0) (h : offset.toNat / 4 < 4) :
    s.readWindow offset = s.port.header[offset.toNat / 4] := by
  simp [State.readWindow, hheld, hword, h]

theorem readWindow_dataWord {offset : BitVec 8} (hheld : s.held = false) (hword : offset.toNat % 4 = 0) (hheader : ¬ offset.toNat / 4 < 4)
    (h : offset.toNat / 4 - 4 < 16) : s.readWindow offset = s.port.data[offset.toNat / 4 - 4] := by
  simp [State.readWindow, hheld, hword, hheader, h]

/-- A read beyond the request area does not see it. -/
theorem readWindow_other {offset : BitVec 8} (hoffset : ¬ offset.toNat / 4 < 4) (hdata : ¬ offset.toNat / 4 - 4 < 16) (header : Vector Word 4)
    (data : Vector Word 16) :
    State.readWindow { s with port := { s.port with header := header, data := data } } offset = s.readWindow offset := by
  simp only [State.readWindow, dif_neg hoffset, dif_neg hdata]
  rfl

/-! ## Writes -/

theorem submission_eq (hheld : s.held = false) (f : State → State) : s.submission f = f s := if_neg (by simp [hheld])

theorem exec_request {c : Instr} (hheld : s.held = false) (f : State → State) (h : exec c s = .next (s.submission f)) :
    exec c s = .next (f s) := by
  rw [h, submission_eq hheld]

theorem exec_registerWrite (hheld : s.held = false) (offset : BitVec 8) (value : Word) :
    exec (.registerWrite offset value) s = .next (s.writeWindow offset value) :=
  congrArg Host.Outcome.next (submission_eq hheld _)

theorem wordOffset_of_mod {offset : BitVec 8} (h : offset.toNat % 4 = 0) : wordOffset offset = true := by simp [wordOffset, h]

/-- A header word of the request area takes a value. -/
def headerWrite (s : State) (i : Nat) (h : i < 4) (value : Word) : State :=
  { s with port := { s.port with header := s.port.header.set i value } }

/-- A data word of the request area takes a value. -/
def dataWrite (s : State) (i : Nat) (h : i < 16) (value : Word) : State :=
  { s with port := { s.port with data := s.port.data.set i value } }

theorem headerWrite_reads {offset other : BitVec 8} (hheld : s.held = false) (hword : offset.toNat % 4 = 0) (hother : other.toNat % 4 = 0)
    (h : offset.toNat / 4 < 4) (value : Word) :
    (headerWrite s (offset.toNat / 4) h value).readWindow other = if other = offset then value else s.readWindow other := by
  have hheld' : (headerWrite s (offset.toNat / 4) h value).held = false := hheld
  split
  · rename_i heq
    subst heq
    rw [readWindow_headerWord hheld' hword h]
    exact Vector.getElem_set_self ..
  · rename_i hne
    have hplace : offset.toNat / 4 ≠ other.toNat / 4 := fun h => hne (BitVec.eq_of_toNat_eq (by omega))
    by_cases hheader : other.toNat / 4 < 4
    · rw [readWindow_headerWord hheld' hother hheader, readWindow_headerWord hheld hother hheader]
      exact Vector.getElem_set_ne h _ hplace
    · by_cases hdata : other.toNat / 4 - 4 < 16
      · rw [readWindow_dataWord hheld' hother hheader hdata, readWindow_dataWord hheld hother hheader hdata]
        rfl
      · exact readWindow_other hheader hdata _ s.port.data

theorem dataWrite_reads {offset other : BitVec 8} (hheld : s.held = false) (hword : offset.toNat % 4 = 0) (hother : other.toNat % 4 = 0)
    (hbeyond : ¬ offset.toNat / 4 < 4) (h : offset.toNat / 4 - 4 < 16) (value : Word) :
    (dataWrite s (offset.toNat / 4 - 4) h value).readWindow other = if other = offset then value else s.readWindow other := by
  have hheld' : (dataWrite s (offset.toNat / 4 - 4) h value).held = false := hheld
  split
  · rename_i heq
    subst heq
    rw [readWindow_dataWord hheld' hword hbeyond h]
    exact Vector.getElem_set_self ..
  · rename_i hne
    have hplace : offset.toNat / 4 ≠ other.toNat / 4 := fun h => hne (BitVec.eq_of_toNat_eq (by omega))
    by_cases hheader : other.toNat / 4 < 4
    · rw [readWindow_headerWord hheld' hother hheader, readWindow_headerWord hheld hother hheader]
      rfl
    · by_cases hdata : other.toNat / 4 - 4 < 16
      · rw [readWindow_dataWord hheld' hother hheader hdata, readWindow_dataWord hheld hother hheader hdata]
        exact Vector.getElem_set_ne h _ (by omega)
      · exact readWindow_other hheader hdata s.port.header _

/-- What a write does, by the place of its word (R166). -/
theorem writeWindow_eq {offset : BitVec 8} (h : offset.toNat % 4 = 0) (value : Word) :
    s.writeWindow offset value =
      if h : offset.toNat / 4 < 4 then headerWrite s (offset.toNat / 4) h value
      else if h : offset.toNat / 4 - 4 < 16 then dataWrite s (offset.toNat / 4 - 4) h value
      else if offset.toNat / 4 = 20 then s.submit
      else s := if_neg (by simp [wordOffset_of_mod h])

/-- Settles O59, word by word. -/
theorem windowWordsTakeWrites : Obligations.WindowWordsTakeWrites := by
  intro s offset value hheld hword
  have hwrite := writeWindow_eq (s := s) hword value
  refine ⟨readWindow_header hheld, readWindow_data hheld, fun harea => ?_, fun hsubmit => ?_, fun hbeyond => ?_⟩
  · rw [exec_registerWrite hheld, hwrite]
    by_cases hheader : offset.toNat / 4 < 4
    · rw [dif_pos hheader]
      refine ⟨_, rfl, rfl, ?_, fun other hother hne => ?_⟩
      · rw [headerWrite_reads hheld hword hword hheader, if_pos rfl]
      · rw [headerWrite_reads hheld hword hother hheader, if_neg hne]
    · have hdata : offset.toNat / 4 - 4 < 16 := by omega
      rw [dif_neg hheader, dif_pos hdata]
      refine ⟨_, rfl, rfl, ?_, fun other hother hne => ?_⟩
      · rw [dataWrite_reads hheld hword hword hheader hdata, if_pos rfl]
      · rw [dataWrite_reads hheld hword hother hheader hdata, if_neg hne]
  · subst hsubmit
    have hsubmits : s.writeWindow 0x50 value = s.submit := rfl
    have hkind : s.port.kind = field s 0 0 4 := rfl
    have hfits : field s 0 0 4 < 16 := Nat.mod_lt _ (by decide)
    have hundefined : .next (s.submitUndefined) = exec .undefinedKind s := (exec_request hheld State.submitUndefined rfl).symm
    rw [exec_registerWrite hheld, hsubmits, State.submit, hkind]
    generalize field s 0 0 4 = kind at hfits
    interval_cases kind
    · exact hundefined
    · exact (Requests.exec_command hheld .post).symm
    · exact (Requests.exec_command hheld .fetch).symm
    · exact (Requests.exec_command hheld .signal).symm
    · exact hundefined
    · exact hundefined
    · exact hundefined
    · exact hundefined
    · exact (exec_request (c := .start) hheld State.submitStart rfl).symm
    · exact (exec_request (c := .restart) hheld State.submitRestart rfl).symm
    · exact (exec_request (c := .setMask) hheld State.submitSetMask rfl).symm
    · exact (exec_request (c := .ackSignal) hheld State.submitAckSignal rfl).symm
    · exact (exec_request (c := .readFault) hheld State.submitReadFault rfl).symm
    · exact (exec_request (c := .clearFaults) hheld State.submitClearFaults rfl).symm
    · exact (exec_request (c := .readReach) hheld State.submitReadReach rfl).symm
    · exact hundefined
  · rw [exec_registerWrite hheld, hwrite, dif_neg (by omega), dif_neg (by omega), if_neg (by omega)]

/-! ## The immediate requests -/

theorem pack_single (n : Nat) : pack [(n, 0)] = BitVec.ofNat 32 n := by simp [pack]

theorem result_mem (r : Result) : (r.code, r) ∈ resultCodes := by cases r <;> decide

theorem result_code_lt (r : Result) : r.code < 2 ^ 32 := by cases r <;> decide

theorem whenStarted_eq (h : s.station ≠ .unstarted) (f : State → State) : s.whenStarted f = f s := if_neg h

theorem whenStarted_unstarted (h : s.station = .unstarted) (f : State → State) : s.whenStarted f = answered s .notStarted := if_pos h

/-- The bits of a number up to `n` add up to its rest. -/
theorem sum_testBit (x n : Nat) : ∑ i : Fin n, bitOf (x.testBit i.val) * 2 ^ i.val = x % 2 ^ n := by
  induction n with
  | zero => simp [Nat.mod_one]
  | succ n ih =>
    rw [Fin.sum_univ_castSucc, Nat.mod_pow_succ]
    simp only [Fin.val_castSucc, Fin.val_last, ih]
    rw [bitOf, Nat.testBit_eq_decide_div_mod_eq]
    rcases Nat.mod_two_eq_zero_or_one (x / 2 ^ n) with h | h <;> simp [h]

/-- The mask in force after SET_MASK is the mask of the request (R121). -/
theorem enableMask_eq {u : State} {mask : BitVec 16} (h : ∀ n : SignalNo, (u.signalOf n).enabled = mask.getLsbD n.val) :
    u.enableMask = mask.toNat := by
  have hsum := sum_testBit mask.toNat 16
  rw [Nat.mod_eq_of_lt mask.isLt] at hsum
  rw [State.enableMask, ← hsum, ← List.sum_ofFn, List.ofFn_eq_map]
  exact congrArg List.sum (List.map_congr_left fun n _ => by rw [h]; rfl)

/-- Settles O57, request by request. -/
theorem immediateRequestsAnswer : Obligations.ImmediateRequestsAnswer := by
  intro s hheld
  refine ⟨?_, readWindow_resultView hheld, fun hstation c hc => ?_, fun hstarted => ⟨?_, ?_, ?_, ?_, ?_, ?_, ?_, ?_, ?_⟩⟩
  · rw [readWindow_result hheld, pack_single, BitVec.toNat_ofNat, Nat.mod_eq_of_lt (result_code_lt _)]
    exact result_mem _
  · simp only [List.mem_cons, List.not_mem_nil, or_false] at hc
    rcases hc with rfl | rfl | rfl | rfl | rfl
    · exact (exec_request hheld State.submitSetMask rfl).trans (congrArg _ (whenStarted_unstarted hstation _))
    · exact (exec_request hheld State.submitAckSignal rfl).trans (congrArg _ (whenStarted_unstarted hstation _))
    · exact (exec_request hheld State.submitReadFault rfl).trans (congrArg _ (whenStarted_unstarted hstation _))
    · exact (exec_request hheld State.submitClearFaults rfl).trans (congrArg _ (whenStarted_unstarted hstation _))
    · exact (exec_request hheld State.submitReadReach rfl).trans (congrArg _ (whenStarted_unstarted hstation _))
  · have hmask : ∀ n : SignalNo, s.port.mask.getLsbD n.val = bit s.port.data[0] n.val := fun n => getLsbD_ofNat_bits _ n.isLt
    have hdone := done_of_group (e := s.applyMask s.port.mask) (g := s.maskNotices s.port.mask) rfl
    have hnotices : (s.maskNotices s.port.mask).foldl push s.completions = s.completions ++ s.maskNotices s.port.mask :=
      foldl_push_of_not_notice _ _ fun c hc k => by
        obtain ⟨n, -, hn⟩ := List.mem_filterMap.mp hc
        split at hn
        · obtain ⟨f, -, rfl⟩ := Option.map_eq_some_iff.mp hn
          rfl
        · cases hn
    have hstate : (s.applyMask s.port.mask).done =
        { s with signals := (s.applyMask s.port.mask).1.signals, completions := s.completions ++ s.maskNotices s.port.mask } := by
      rw [hdone, ← hnotices]
      rfl
    have hsignal : ∀ n, (s.applyMask s.port.mask).done.signalOf n = (s.signalOf n).masked (bit s.port.data[0] n.val) := fun n => by
      rw [← hmask]
      exact s.applyMask_signalOf s.port.mask n
    refine ⟨(s.applyMask s.port.mask).done, ?_, ?_, hsignal, ?_⟩
    · refine (exec_request hheld State.submitSetMask rfl).trans (congrArg _ ((whenStarted_eq hstarted.2 _).trans ?_))
      have henabled : (s.applyMask s.port.mask).done.enableMask = bits s.port.data[0] 0 16 :=
        (enableMask_eq (mask := s.port.mask) fun n => by rw [hsignal, hmask]; rfl).trans (toNat_ofNat_bits _ 0 16)
      dsimp only
      rw [henabled, pack_single]
      rfl
    · rw [hstate]
    · rw [hstate]
      refine congrArg (s.completions ++ ·) (List.filterMap_congr fun n _ => ?_)
      rw [hmask]
      rfl
  · intro hrange
    refine (exec_request hheld State.submitAckSignal rfl).trans (congrArg _ ((whenStarted_eq hstarted.2 _).trans ?_))
    have hcheck : s.ackCheck s.port.signalNo = .badSignal := dif_neg (Nat.not_lt.mpr hrange)
    simp only [hcheck]
    rfl
  · intro n hn
    have hno : s.port.signalNo = n.val := hn
    have hcheck : s.ackCheck s.port.signalNo =
        if !(s.signalOf n).pending then .notPending else if (s.signalOf n).notice = .unread then .noticeUnread else .accepted := by
      rw [hno]
      exact dif_pos n.isLt
    have hexec : exec .ackSignal s = .next (if s.ackCheck s.port.signalNo = .accepted then s.closeEpisode (Fin.ofNat 16 s.port.signalNo)
        else s.answer (s.ackCheck s.port.signalNo)) :=
      (exec_request hheld State.submitAckSignal rfl).trans (congrArg _ (whenStarted_eq hstarted.2 _))
    refine ⟨fun hpending => ?_, fun hpending hunread => ?_, fun f hpending hread hfirst => ?_⟩
    · have hrefused : s.ackCheck s.port.signalNo = .notPending := hcheck.trans (by simp [hpending])
      rw [hexec, hrefused]
      rfl
    · have hrefused : s.ackCheck s.port.signalNo = .noticeUnread := hcheck.trans (by simp [hpending, hunread])
      rw [hexec, hrefused]
      rfl
    · have haccepted : s.ackCheck s.port.signalNo = .accepted := hcheck.trans (by simp [hpending, hread])
      rw [hexec, if_pos haccepted, hno, fin_ofNat_val, State.closeEpisode, hfirst]
      rfl
  · intro r hr
    refine ⟨causeCode r.cause, by cases r.cause <;> decide, ?_⟩
    refine (exec_request hheld State.submitReadFault rfl).trans (congrArg _ ((whenStarted_eq hstarted.2 _).trans ?_))
    have hlog : s.contain.log[s.port.faultIndex]? = some r := hr
    simp only [hlog]
    rfl
  · intro hrange
    refine (exec_request hheld State.submitReadFault rfl).trans (congrArg _ ((whenStarted_eq hstarted.2 _).trans ?_))
    have hlog : s.contain.log[s.port.faultIndex]? = none := List.getElem?_eq_none hrange
    simp only [hlog]
    rfl
  · intro hcontained
    exact (exec_request hheld State.submitClearFaults rfl).trans (congrArg _ ((whenStarted_eq hstarted.2 _).trans (if_pos hcontained)))
  · intro hcontained
    exact (exec_request hheld State.submitClearFaults rfl).trans (congrArg _ ((whenStarted_eq hstarted.2 _).trans (if_neg hcontained)))
  · intro hrange
    refine (exec_request hheld State.submitReadReach rfl).trans (congrArg _ ((whenStarted_eq hstarted.2 _).trans ?_))
    have hnone : station? s.port.stationNo = none := dif_neg (Nat.not_lt.mpr hrange)
    simp only [hnone]
    rfl
  · intro d hd
    refine ⟨(s.reachOf d).state.code, by cases (s.reachOf d).state <;> decide, ?_⟩
    refine (exec_request hheld State.submitReadReach rfl).trans (congrArg _ ((whenStarted_eq hstarted.2 _).trans ?_))
    have hsome : station? s.port.stationNo = some d := (congrArg station? hd).trans (station?_val d)
    simp only [hsome]
    rfl

/-! ## TAKE -/

/-- The four fields of VIEW word 0 (TABLE 11-12). -/
theorem viewWord_fields {w : Word} {a k d x : Nat} (hw : w.toNat = a + (k * 2 ^ 4 + (d * 2 ^ 8 + x * 2 ^ 16))) (ha : a < 4) (hk : k < 16) (hd : d < 16)
    (hx : x < 256) : bits w 0 2 = a ∧ bits w 4 4 = k ∧ bits w 8 4 = d ∧ bits w 16 8 = x ∧ bits w 16 5 = x % 32 := by
  unfold bits
  rw [hw]
  clear hw
  refine ⟨?_, ?_, ?_, ?_, ?_⟩ <;> omega

theorem requestWord_fields {a k d x : Nat} (ha : a < 4) (hk : k < 16) (hd : d < 16) (hx : x < 32) :
    bits (pack [(a, 0), (k, 4), (d, 8), (x, 16)]) 0 2 = a ∧ bits (pack [(a, 0), (k, 4), (d, 8), (x, 16)]) 4 4 = k ∧
      bits (pack [(a, 0), (k, 4), (d, 8), (x, 16)]) 8 4 = d ∧ bits (pack [(a, 0), (k, 4), (d, 8), (x, 16)]) 16 5 = x := by
  obtain ⟨h1, h2, h3, -, h4⟩ := viewWord_fields (w := pack [(a, 0), (k, 4), (d, 8), (x, 16)]) (a := a) (k := k) (d := d) (x := x)
    (by rw [pack_toNat] <;> simp only [fieldSum_cons, fieldSum_nil] <;> omega) ha hk hd (by omega)
  exact ⟨h1, h2, h3, h4.trans (Nat.mod_eq_of_lt hx)⟩

theorem noticeWord_fields {a k x : Nat} (ha : a < 4) (hk : k < 16) (hx : x < 256) :
    bits (pack [(a, 0), (k, 4), (x, 16)]) 0 2 = a ∧ bits (pack [(a, 0), (k, 4), (x, 16)]) 4 4 = k ∧
      bits (pack [(a, 0), (k, 4), (x, 16)]) 16 8 = x := by
  obtain ⟨h1, h2, -, h3, -⟩ := viewWord_fields (w := pack [(a, 0), (k, 4), (x, 16)]) (a := a) (k := k) (d := 0) (x := x)
    (by rw [pack_toNat] <;> simp only [fieldSum_cons, fieldSum_nil] <;> omega) ha hk (by omega) hx
  exact ⟨h1, h2, h3⟩

theorem signalWord_fields {a k d : Nat} (ha : a < 4) (hk : k < 16) (hd : d < 16) :
    bits (pack [(a, 0), (k, 4), (d, 8)]) 0 2 = a ∧ bits (pack [(a, 0), (k, 4), (d, 8)]) 4 4 = k ∧ bits (pack [(a, 0), (k, 4), (d, 8)]) 8 4 = d := by
  obtain ⟨h1, h2, h3, -, -⟩ := viewWord_fields (w := pack [(a, 0), (k, 4), (d, 8)]) (a := a) (k := k) (d := d) (x := 0)
    (by rw [pack_toNat] <;> simp only [fieldSum_cons, fieldSum_nil] <;> omega) ha hk hd (by omega)
  exact ⟨h1, h2, h3⟩

/-- The VIEW words of a record lay it out (TABLE 11-12). -/
theorem laidOut_words (c : Completion) : LaidOut c.words c := by
  cases c with
  | request cookie kind dest status =>
    obtain ⟨h1, h2, h3, h4⟩ := requestWord_fields (a := 1) (k := kind.code) (d := dest.val) (x := status.code) (by decide)
      (by cases kind <;> decide) (by omega) (by cases status <;> decide)
    have hcookie : bits (pack [(cookie.toNat, 0)]) 0 16 = cookie.toNat := by
      rw [bits, pack_single, BitVec.toNat_ofNat]
      have := cookie.isLt
      omega
    refine ⟨h1, ?_, h3, ?_, hcookie, rfl, rfl⟩
    · exact (congrArg (fun code => (code, kind) ∈ [(1, RequestKind.post), (2, .fetch), (3, .signal)]) h2).mpr (by cases kind <;> decide)
    · exact (congrArg (fun code => (code, status) ∈ statusCodes) h4).mpr (by cases status <;> decide)
  | signal n first =>
    obtain ⟨h1, h2, h3⟩ := signalWord_fields (a := 2) (k := n.val) (d := first.val) (by decide) n.isLt (by omega)
    exact ⟨h1, h2, h3, rfl, rfl, rfl⟩
  | station kind count arg =>
    intro hcount harg
    obtain ⟨h1, h2, h3⟩ := noticeWord_fields (a := 3) (k := kind.code) (x := count) (by decide) (by cases kind <;> decide) (by omega)
    refine ⟨h1, ?_, h3, ?_, rfl, rfl⟩
    · exact (congrArg (fun code => (code, kind) ∈ noticeCodes) h2).mpr (by cases kind <;> decide)
    · change (pack [(arg, 0)]).toNat = arg
      rw [pack_single, BitVec.toNat_ofNat, Nat.mod_eq_of_lt harg]

theorem exec_take (s : State) : exec .take s = .next (if s.held then s.returned 0 else s.takeRecord) := rfl

/-- The station once its oldest record `c` is in the VIEW words (R119, R179). -/
def popped (s : State) (c : Completion) (rest : List Completion) : State :=
  (State.readingOf { s with completions := rest, port := { s.port with view := c.words } } c).returned 1

theorem popped_eq (s : State) (c : Completion) (rest : List Completion) :
    popped s c rest = { s with
        completions := rest, signals := (popped s c rest).signals, port := { s.port with view := c.words, takeWord := 1 } } ∧
      (popped s c rest).signals = (s.readingOf c).signals := by
  cases c <;> exact ⟨rfl, rfl⟩

/-- Settles O58, record by record. -/
theorem takePopsTheOldestRecord : Obligations.TakePopsTheOldestRecord := by
  refine fun s => ⟨?_, fun h => ?_, fun c rest hheld hqueue => ?_⟩
  · simp [State.noticeLine]
  · rw [exec_take]
    rcases h with hempty | hheld
    · have hrecord : s.takeRecord = s.returned 0 := by simp [State.takeRecord, hempty]
      rw [hrecord, ite_self]
      rfl
    · rw [if_pos hheld]
      rfl
  · have htake : exec .take s = .next (popped s c rest) := by
      rw [exec_take, if_neg (by simp [hheld]), State.takeRecord, hqueue]
      rfl
    obtain ⟨hstate, hsignals⟩ := popped_eq s c rest
    have hheld' : (popped s c rest).held = false := by rw [hstate]; exact hheld
    have hview : (popped s c rest).port.view = c.words := by rw [hstate]
    refine ⟨_, htake, hstate, laidOut_words c, fun i => ?_, fun hc => ?_, fun n f hc hunread => ?_, fun hc => ?_⟩
    · rw [readWindow_view hheld', hview]
    · rw [hsignals]
      cases c with
      | signal n f => exact absurd rfl (hc n f)
      | _ => rfl
    · rw [hsignals, hc]
      change s.signals.set n.val _ = _
      rw [if_pos hunread]
    · have hslots : (popped s c rest).slotsInUse = s.slotsInUse := by rw [hstate]; rfl
      have hsend : (popped s c rest).sendQueue = s.sendQueue := by rw [hstate]
      have hqueue' : (popped s c rest).completions = rest := by rw [hstate]
      rw [State.budgetSum, State.budgetSum, hslots, hsend, State.unreadRequests, State.unreadRequests, hqueue', hqueue, List.countP_cons, if_pos hc]
      omega

/-! ## The STATUS words -/

theorem length_le_requests (q : List Completion) :
    q.length = q.countP Completion.isRequest + (∑ n : SignalNo, q.countP (Completion.isSignal n)) +
      (noticeCodes.map fun x => q.countP (Completion.isNotice x.2)).sum := by
  induction q with
  | nil => simp [noticeCodes]
  | cons c q ih =>
    have hone : bitOf c.isRequest + (∑ n : SignalNo, bitOf (c.isSignal n)) + (noticeCodes.map fun x => bitOf (c.isNotice x.2)).sum = 1 := by
      cases c with
      | request cookie kind dest status => simp [Completion.isRequest, Completion.isSignal, Completion.isNotice, bitOf, noticeCodes]
      | signal n f => simp [Completion.isRequest, Completion.isSignal, Completion.isNotice, bitOf, noticeCodes]
      | station k count arg => cases k <;> simp [Completion.isRequest, Completion.isSignal, Completion.isNotice, bitOf, noticeCodes]
    have hcons : ∀ p : Completion → Bool, (c :: q).countP p = q.countP p + bitOf (p c) := fun p => List.countP_cons
    simp only [List.length_cons, hcons, Finset.sum_add_distrib, List.sum_map_add]
    omega

/-- The three bounds of R174 add up. -/
theorem completions_length_le (hcapacity : Capacity s) (honce : NoticesOnce s) (hsignals : SignalsAgree s) : s.completions.length ≤ 64 := by
  have hrequests : s.completions.countP Completion.isRequest ≤ 40 := by
    obtain ⟨-, -, hbudget⟩ := hcapacity
    simp only [State.budgetSum, State.unreadRequests, Config.budgetLimit] at hbudget
    omega
  have hsignal : (∑ n : SignalNo, s.completions.countP (Completion.isSignal n)) ≤ 16 := by
    refine (Finset.sum_le_card_nsmul _ _ 1 fun n _ => ?_).trans (by simp)
    rw [(hsignals n).2.1]
    split <;> omega
  have hnotice : (noticeCodes.map fun x => s.completions.countP (Completion.isNotice x.2)).sum ≤ 8 := by
    refine (List.sum_le_card_nsmul _ 1 fun m hm => ?_).trans (by simp [noticeCodes])
    obtain ⟨x, -, rfl⟩ := List.mem_map.mp hm
    exact honce x.2
  rw [length_le_requests]
  omega

theorem slotsInUse_le (s : State) : s.slotsInUse ≤ 8 := (List.countP_le_length).trans (by simp)

/-- The eight fields of STATUS word 0 (TABLE 11-14). -/
theorem statusWord0_fields {w : Word} {a b c d e f g h : Nat} (hw : w.toNat = a + (b * 2 ^ 3 + (c * 2 ^ 7 + (d * 2 ^ 8 + (e * 2 ^ 9 + (f * 2 ^ 15 +
      (g * 2 ^ 19 + h * 2 ^ 24))))))) (ha : a < 8) (hb : b < 16) (hc : c < 2) (hd : d < 2) (he : e < 64) (hf : f < 16) (hg : g < 32) (hh : h < 128) :
    bits w 0 3 = a ∧ bits w 3 4 = b ∧ bits w 7 1 = c ∧ bits w 8 1 = d ∧ bits w 9 6 = e ∧ bits w 15 4 = f ∧ bits w 19 5 = g ∧ bits w 24 7 = h ∧
      bits w 7 2 = c + 2 * d := by
  unfold bits
  rw [hw]
  clear hw
  refine ⟨?_, ?_, ?_, ?_, ?_, ?_, ?_, ?_, ?_⟩ <;> omega

/-- The four fields of STATUS word 1 (TABLE 11-14). -/
theorem statusWord1_fields {w : Word} {a b c d : Nat} (hw : w.toNat = a + (b * 2 ^ 8 + (c * 2 ^ 16 + d * 2 ^ 24))) (ha : a < 8) (hb : b < 256)
    (hc : c < 256) (hd : d < 256) : bits w 0 3 = a ∧ bits w 8 8 = b ∧ bits w 16 8 = c ∧ bits w 24 8 = d := by
  unfold bits
  rw [hw]
  clear hw
  refine ⟨?_, ?_, ?_, ?_⟩ <;> omega

/-- Settles O13, from the bounds of the three kinds of record and the layout of the packed words. -/
theorem countsFitTheStatusWord : Obligations.CountsFitTheStatusWord := by
  intro s hcounts hcapacity honce hsignals
  have hcompletions := completions_length_le hcapacity honce hsignals
  obtain ⟨hvoid, -, hrepair, -, hoverflow, hlog, -, -, -⟩ := hcounts
  obtain ⟨hsend, hinbound, -⟩ := hcapacity
  have hslots := slotsInUse_le s
  have hcode : s.station.code < 8 := by cases s.station <;> decide
  have hcls : s.config.elim 0 (fun c => classCode c.cls) < 2 := by
    cases s.config with
    | none => decide
    | some c => cases h : c.cls <;> simp [h, classCode]
  have hpolicy : s.config.elim 0 (fun c => policyCode c.policy) < 2 := by
    cases s.config with
    | none => decide
    | some c => cases h : c.policy <;> simp [h, policyCode]
  simp only [Config.countMax, Config.faultCapacity, Config.sendCapacity, Config.inboundCapacity] at hvoid hrepair hoverflow hlog hsend hinbound
  have hstrap := s.strap.isLt
  obtain ⟨h0, h3, h7, h8, h9, h15, h19, h24, h72⟩ := statusWord0_fields (w := s.statusWord0) (a := s.station.code) (b := s.strap.toNat)
    (c := s.config.elim 0 fun c => classCode c.cls) (d := s.config.elim 0 fun c => policyCode c.policy) (e := s.sendQueue.length)
    (f := s.slotsInUse) (g := s.inbound.length) (h := s.completions.length)
    (by
      rw [State.statusWord0, pack_toNat] <;> simp only [fieldSum_cons, fieldSum_nil]
      · omega
      · generalize s.strap.toNat = b at hstrap ⊢
        omega)
    hcode hstrap hcls hpolicy (by omega) (by omega) (by omega) (by omega)
  obtain ⟨g0, g8, g16, g24⟩ := statusWord1_fields (w := s.statusWord1) (a := s.contain.log.length) (b := s.contain.overflow) (c := s.span.voidRun)
    (d := s.turn.repair) (by rw [State.statusWord1, pack_toNat] <;> simp only [fieldSum_cons, fieldSum_nil] <;> omega)
    (by omega) (by omega) (by omega) (by omega)
  refine ⟨hcompletions, readWindow_status, ?_, h3, fun c hc => ⟨?_, ?_⟩, fun hunstarted hstation => ?_, h9, h15, h19, h24, g0, g8, g16, g24⟩
  · rw [h0]
    cases s.station <;> decide
  · rw [h7, hc, Option.elim_some]
    cases c.cls <;> rfl
  · rw [h8, hc, Option.elim_some]
    cases c.policy <;> rfl
  · obtain ⟨hconfig, -⟩ := hunstarted hstation
    rw [h72, hconfig]
    rfl

end Sys2Proof.Window
end

section
/-! The sender's part of an answer close: the in-flight entry and the RETURN in flight are settled (R44 to R55, R108 to R110), with the reach table's part
of the answer (R63, R64, R68). -/

namespace Sys2Proof.Settlement

open Sys2Proof.Machine Sys2Proof.Safety Sys2Proof.Claims Sys2Proof.Events Sys2Proof.Acts Sys2Proof.Rounds Sys2Proof.Outcomes Sys2Proof.Broadcasts
  Sys2Proof.Engine

variable {s t u : State} {e : Effect} {older younger : List SendEntry} {x : SendEntry} {report : AnswerReport}

/-! ## An answer close at a station that holds nothing for an answer -/

/-- `t` is `s` after a block that leaves the round, holds nothing for an answer, and brings no IDLE engine an entry. -/
def Spares (s t : State) : Prop :=
  t.span = s.span ∧ t.station = s.station ∧ t.inbound = s.inbound ∧ (∀ k, (t.slot k).state = .holding → (s.slot k).state = .holding) ∧
    (t.engine = .idle → s.engine = .idle)

/-- An answer close of which only the sender's part changes anything but the round (R11, R14). -/
theorem exec_settles {driven : Option AnswerCode} (hpart : s.takesPart = true) (hphase : s.span.phase = .answer none driven) (hidle : HolderIdle s)
    (hstation : s.station ≠ .listening) (he : s.settleCandidate (readAnswer report) = e) (hspares : Spares s e.1) :
    exec (.answerClose report) s = .next { e.done with span := ended s.span } := by
  obtain ⟨hprovisional, hholding, hhead, -⟩ := hidle
  obtain ⟨hspan, hkept, hinbound, hslots, hengine⟩ := hspares
  have hholder : e.1.settleHolder (readAnswer report == .good .taken) = quiet e.1 :=
    settleHolder_idle _ (hinbound ▸ hprovisional) (fun k h => hholding k (hslots k h)) fun h => .inl (hinbound.trans (hhead (hengine h)))
  have hcloses : closing s (readAnswer report) = e.andThen fun u => quiet (goesOn false none u) := by
    rw [closing, he, andThen_congr (e := e) (g := quiet) hholder, Effect.andThen_quiet]
    simp only [countRound_eq]
    rfl
  rw [exec_answerClose hpart hphase (.inl rfl), hcloses, done_andThen_aside _ (aside_goesOn _ _)]
  have hdone : e.done.station ≠ .listening := hkept ▸ hstation
  have hspan' : e.done.span = s.span := hspan
  rw [goesOn, if_neg (by simp), counted, if_neg (by exact hdone), hspan']

/-- The same where the sender's part hands nothing on. -/
theorem exec_settles_quiet {driven : Option AnswerCode} (hpart : s.takesPart = true) (hphase : s.span.phase = .answer none driven) (hidle : HolderIdle s)
    (hstation : s.station ≠ .listening) (he : s.settleCandidate (readAnswer report) = quiet t) (hspares : Spares s t) :
    exec (.answerClose report) s = .next { t with span := ended s.span } := by
  rw [exec_settles hpart hphase hidle hstation he hspares, Effect.done_quiet]

/-- The closing of a station frees slots, and an engine in ROOM_WAIT goes on to the read of its head. -/
theorem spares_of_closing {p : FetchSlot → Prop} (hidle : HolderIdle s) (hspan : t.span = s.span) (hstation : t.station = s.station)
    (hinbound : t.inbound = s.inbound) (hslots : SlotsEnd s t p) (hroom : RoomFreed s t) : Spares s t := by
  obtain ⟨-, -, -, hread⟩ := hidle
  refine ⟨hspan, hstation, hinbound, fun k hk => ?_, fun hengine => ?_⟩
  · by_cases h : (s.slot k).state = .awaiting ∧ p (s.slot k)
    · rw [(hslots k).1 h] at hk
      cases hk
    · rwa [(hslots k).2 h] at hk
  · obtain ⟨hstays, hasks⟩ := hroom
    by_cases h : s.engine = .roomWait ∧ t.returns.length < 8
    · obtain ⟨hwait, hplace⟩ := h
      cases hhead : headAccess s with
      | none =>
        have := hread hwait
        rw [hhead] at this
        cases this
      | some a =>
        have hisRead : isRead a = true := by
          have := hread hwait
          rwa [hhead] at this
        have hnever : (asks s a).engine ≠ .idle := by
          rw [asks]
          split <;> simp
        exact absurd ((hasks a hwait hplace hhead hisRead).1.symm.trans hengine) hnever
    · have hkept : s.engine ≠ .roomWait ∨ 8 ≤ t.returns.length := by
        rw [not_and_or] at h
        exact h.imp_right Nat.not_lt.mp
      exact (hstays hkept).1.symm.trans hengine

/-! ## The entry in flight -/

section

variable (h : Awaits s older x younger)
include h

theorem awaits_settles (o : AnswerOutcome) :
    s.settleCandidate o = if s.station = .contained then s.settleContained x o else s.settleEntry x o := by
  obtain ⟨-, -, hsource, hqueue, hx, holder, hyounger, -⟩ := h
  obtain ⟨hfind, -⟩ := inFlight_split older younger x holder hx hyounger id
  have hentry : s.inFlightEntry = some x := by rw [State.inFlightEntry, hqueue, hfind]
  simp only [State.settleCandidate, hsource, hentry]

theorem awaits_removed : s.sendQueue.filter (fun y => !y.inFlight) = older ++ younger := by
  obtain ⟨-, -, -, hqueue, hx, holder, hyounger, -⟩ := h
  rw [hqueue, (inFlight_split older younger x holder hx hyounger id).2.1]

theorem awaits_alone : s.sendQueue.filter (·.inFlight) = [x] := by
  obtain ⟨-, -, -, hqueue, hx, holder, hyounger, -⟩ := h
  rw [hqueue, (inFlight_split older younger x holder hx hyounger id).2.2.1]

theorem awaits_changed (f : SendEntry → SendEntry) : (s.sendQueue.map fun y => if y.inFlight then f y else y) = older ++ f x :: younger := by
  obtain ⟨-, -, -, hqueue, hx, holder, hyounger, -⟩ := h
  rw [hqueue, (inFlight_split older younger x holder hx hyounger f).2.2.2]

theorem awaits_lane : s.lane x.dest = x :: younger.filter (fun y => y.dest == x.dest) := by
  obtain ⟨-, -, -, hqueue, -, -, -, hdest, -⟩ := h
  have holder : older.filter (fun y => y.dest == x.dest) = [] := List.filter_eq_nil_iff.mpr fun y hy => by simpa using hdest y hy
  rw [State.lane, hqueue, List.filter_append, holder, List.nil_append, List.filter_cons, if_pos (beq_self_eq_true _)]

theorem awaits_others : s.sendQueue.filter (fun y => y.dest != x.dest) = older ++ younger.filter (fun y => y.dest != x.dest) := by
  obtain ⟨-, -, -, hqueue, -, -, -, hdest, -⟩ := h
  have holder : older.filter (fun y => y.dest != x.dest) = older := List.filter_eq_self.mpr fun y hy => by simpa using hdest y hy
  rw [hqueue, List.filter_append, holder, List.filter_cons_of_neg (by simp)]

/-- The close of the round in which an ACTIVE station settles its entry. -/
theorem awaits_active (hactive : s.station = .active) (he : s.settleEntry x (readAnswer report) = e) (hspares : Spares s e.1) :
    exec (.answerClose report) s = .next { e.done with span := ended s.span } := by
  have hsettles := awaits_settles h (readAnswer report)
  obtain ⟨hpart, hphase, -, -, -, -, -, -, hidle⟩ := h
  refine exec_settles hpart hphase hidle (by simp [hactive]) ?_ hspares
  rw [hsettles, if_neg (by simp [hactive]), he]

/-- The same at a CONTAINED station. -/
theorem awaits_contained (hcontained : s.station = .contained) (he : s.settleContained x (readAnswer report) = e) (hspares : Spares s e.1) :
    exec (.answerClose report) s = .next { e.done with span := ended s.span } := by
  have hsettles := awaits_settles h (readAnswer report)
  obtain ⟨hpart, hphase, -, -, -, -, -, -, hidle⟩ := h
  refine exec_settles hpart hphase hidle (by simp [hcontained]) ?_ hspares
  rw [hsettles, if_pos hcontained, he]

end

theorem timeout_of_config {c : StationConfig} (h : s.config = some c) : fetchTimeouts[c.timeout.val]? = some s.fetchTimeout := by
  rw [State.fetchTimeout, h, Option.elim_some]
  generalize c.timeout = code
  revert code
  decide

theorem patience_of_config {c : StationConfig} (h : s.config = some c) :
    patienceLimits[c.patience.val]? = some s.patience ∧ retryIntervals[c.retry.val]? = some s.retryInterval := by
  rw [State.patience, State.retryInterval, h, Option.elim_some, Option.elim_some]
  generalize c.patience = code
  generalize c.retry = code'
  revert code code'
  decide

/-- A POST or SIGNAL taken leaves, with DONE if its report flag is set (R40, R44). -/
theorem done_entryTaken (hkind : x.kind ≠ .fetch) :
    (s.entryTaken x).1 = s.removeInFlight ∧
      (s.entryTaken x).done =
        { s.removeInFlight with completions := if x.report then s.completions ++ [x.record .done] else s.completions } := by
  have htaken : s.entryTaken x = (s.removeInFlight, { Handed.none with sendQueue := if x.report then [[x.record .done]] else [] }) := by
    unfold State.entryTaken
    cases hop : x.op with
    | fetch => simp [SendEntry.kind, hop] at hkind
    | _ => rfl
  rw [htaken]
  refine ⟨rfl, ?_⟩
  cases x.report with
  | true => exact done_of_group (g := [x.record .done]) rfl
  | false => exact done_of_none rfl

/-- Settles O41, from the close of a round that settles an entry. -/
theorem takenEntryLeaves : Obligations.TakenEntryLeaves := by
  intro s older x younger h hactive
  refine ⟨fun c => timeout_of_config, ?_⟩
  intro s'
  have hremoved : (s.bookReply x.dest).removeInFlight =
      { s with sendQueue := older ++ younger, reach := s.reach.set x.dest.val (bookedEntry (s.reachOf x.dest)) } := by
    rw [bookReply_eq, State.removeInFlight]
    exact congrArg (fun q => { s with sendQueue := q, reach := s.reach.set x.dest.val (bookedEntry (s.reachOf x.dest)) }) (awaits_removed h)
  refine ⟨fun hkind => ?_, fun addr length landing k hop => ?_⟩
  · obtain ⟨hleaves, hdone⟩ := done_entryTaken (s := s.bookReply x.dest) hkind
    rw [hremoved] at hleaves hdone
    rw [awaits_active h hactive (report := .code 1) rfl (by change Spares s (State.entryTaken _ x).1; rw [hleaves]; exact ⟨rfl, rfl, rfl, fun _ => id, id⟩)]
    change Host.Outcome.next { (State.entryTaken (s.bookReply x.dest) x).done with span := ended s.span } = _
    rw [hdone]
    rfl
  · have htaken : s.settleEntry x (readAnswer (.code 1)) =
        quiet ((s.bookReply x.dest).removeInFlight.allocate k x.dest landing length x.cookie) := by
      change State.entryTaken _ x = _
      simp only [State.entryTaken, hop]
    rw [hremoved] at htaken
    rw [awaits_active h hactive htaken ⟨rfl, rfl, rfl, fun i hi => ?_, id⟩, Effect.done_quiet]
    · rfl
    · rw [quiet_fst, State.allocate, State.slot_setSlot] at hi
      split at hi
      · cases hi
      · exact hi

/-! ## Answers after which the entry stays or its lane fails -/

theorem push_records (q : List Completion) (status : Status) (x : SendEntry) (younger : List SendEntry) :
    (failure status x younger).foldl push q = q ++ failure status x younger :=
  foldl_push_of_not_notice _ q (laneRecords_not_notice status (x :: younger.filter fun y => y.dest == x.dest))

/-- Settles O42, from the close of a round that settles an entry. -/
theorem fullOutsideAndStaleSettle : Obligations.FullOutsideAndStaleSettle := by
  intro s older x younger h hactive
  refine ⟨fun c => patience_of_config, ?_⟩
  intro booked failed
  have hbooked : s.bookReply x.dest = { s with reach := s.reach.set x.dest.val booked } := bookReply_eq s x.dest
  have hfails : ∀ {report status}, s.settleEntry x (readAnswer report) = (s.bookReply x.dest).closeLane x.dest status →
      exec (.answerClose report) s = .next (failed status) := by
    intro report status hsettles
    have hgroup : ((s.bookReply x.dest).closeLane x.dest status).2.streams.flatten = [failure status x younger] := by
      have : (s.bookReply x.dest).lane x.dest = x :: younger.filter (fun y => y.dest == x.dest) := awaits_lane h
      rw [(State.closeLane_spec _ x.dest status).2.1, this]
      rfl
    rw [awaits_active h hactive hsettles ⟨rfl, rfl, rfl, fun _ => id, id⟩, done_of_group hgroup, push_records, (State.closeLane_spec _ x.dest status).1, hbooked]
    exact congrArg (fun q => Host.Outcome.next { failed status with sendQueue := q }) (awaits_others h)
  refine ⟨fun hpatience hstate => ?_, fun hpatience => hfails ?_, hfails rfl, ?_⟩
  · have hbusy : s.settleEntry x (readAnswer (.code 2)) = quiet (s.raiseFull.replyBusy x.dest) := if_pos hpatience
    have hreach : (s.raiseFull.bookReply x.dest).reachOf x.dest = booked := by
      rw [bookReply_eq]
      exact State.reachOf_setReach_same (s := s.raiseFull) x.dest booked
    have hwaits : s.raiseFull.replyBusy x.dest =
        { s with
          sendQueue := older ++ { x.release with fullCount := x.fullCount + 1 } :: younger
          reach := s.reach.set x.dest.val { booked with state := .waiting, timer := .running s.retryInterval } } := by
      rw [State.replyBusy]
      simp only [hreach]
      rw [if_pos hstate, bookReply_eq, ← awaits_changed h fun y => { y.release with fullCount := y.fullCount + 1 }]
      simp only [State.setReach, Vector.set_set]
      rfl
    rw [hwaits] at hbusy
    rw [awaits_active h hactive hbusy ⟨rfl, rfl, rfl, fun _ => id, id⟩, Effect.done_quiet]
  · exact if_neg (Nat.not_lt.mpr hpatience)
  · have hstays : s.settleEntry x (readAnswer (.code 5)) = quiet (s.bookReply x.dest).releaseInFlight := rfl
    rw [awaits_active h hactive hstays ⟨rfl, rfl, rfl, fun _ => id, id⟩, Effect.done_quiet, hbooked, ← awaits_changed h SendEntry.release]
    rfl

/-! ## A destination that its answer closes -/

theorem readAnswer_noReply (h : noReply report) : readAnswer report = .void ∨ readAnswer report = .silent := by
  rcases h with rfl | rfl | rfl | rfl | rfl
  · exact .inr rfl
  all_goals exact .inl rfl

/-- A no-reply that closes nothing raises the silence count (R64). -/
theorem noReply_counts {d : Station} (hself : (s.reachOf d).state ≠ .self) (h : ¬ canFallSilent (s.reachOf d).state ∨ (s.reachOf d).silence < 2) :
    s.noReply d = quiet (s.setReach d { s.reachOf d with silence := min ((s.reachOf d).silence + 1) 3 }) := by
  rcases s.noReply_cases d with ⟨hstate, -⟩ | ⟨hsilence, hstate, -⟩ | ⟨-, -, hcounts⟩
  · exact absurd hstate hself
  · exact (h.elim (· hstate) fun hlt => absurd hlt (Nat.not_lt.mpr hsilence)).elim
  · exact hcounts

/-- The third no-reply in a row closes the station (R64). -/
theorem noReply_closes {d : Station} (hstate : canFallSilent (s.reachOf d).state) (hsilence : 2 ≤ (s.reachOf d).silence) :
    s.noReply d = (s.setReach d silentEntry).closeDestination d .unreachable := by
  rcases s.noReply_cases d with ⟨hself, -⟩ | ⟨-, -, hcloses⟩ | ⟨-, h, -⟩
  · rcases hstate with h | h | h <;> rw [h] at hself <;> cases hself
  · exact hcloses
  · rcases h with h | h | h
    · omega
    all_goals rcases hstate with h' | h' | h' <;> rw [h] at h' <;> cases h'

theorem bookedEntry_state (y : ReachEntry) :
    ((bookedEntry y).state = .contained ↔ y.state = .contained) ∧ ((bookedEntry y).state = .self ↔ y.state = .self) := by
  unfold bookedEntry
  split <;> rename_i h <;> simp [h]

theorem bookedEntry_silence {y : ReachEntry} (h : y.state ≠ .self) : (bookedEntry y).silence = 0 := by
  rw [bookedEntry_eq, if_neg h]
  rfl

/-- A REFUSED closes the station that drove it, unless its entry is CONTAINED (R68). -/
theorem replyRefused_closes {d : Station} (hcontained : (s.reachOf d).state ≠ .contained) (hself : (s.reachOf d).state ≠ .self) :
    s.replyRefused d = ((s.setReach d haltedEntry).closeDestination d .destContained).andThen fun v => (v, reachNotice .peerHalted d) := by
  rw [State.replyRefused, bookReply_eq]
  exact peerHalts_alive ((bookedEntry_state _).1.not.mpr hcontained) ((bookedEntry_state _).2.not.mpr hself) (bookedEntry_silence hself)

theorem replyRefused_contained {d : Station} (hcontained : (s.reachOf d).state = .contained) : s.replyRefused d = quiet (s.bookReply d) := by
  rw [State.replyRefused, bookReply_eq]
  refine if_pos (.inl ?_)
  exact (congrArg ReachEntry.state (State.reachOf_setReach_same (s := s) d (bookedEntry (s.reachOf d)))).trans ((bookedEntry_state _).1.mpr hcontained)

/-- What a closing changes, at the end of its round. -/
theorem handedOn_closing {v : SpanUnit}
    (hframe : e.1 = { s with
      sendQueue := e.1.sendQueue, reach := e.1.reach, slots := e.1.slots, returns := e.1.returns, engine := e.1.engine, path := e.1.path }) :
    { e.done with span := v } = { s with
      span := v, sendQueue := e.1.sendQueue, reach := e.1.reach, slots := e.1.slots, returns := e.1.returns, engine := e.1.engine
      path := e.1.path, completions := e.done.completions, choices := e.done.choices } :=
  (handedOn_done e v).trans ((congrArg (handedOn e v) hframe).trans rfl)

theorem silent_not_self {y : ReachState} (h : canFallSilent y) : y ≠ .self ∧ y ≠ .contained := by
  rcases h with rfl | rfl | rfl <;> simp

/-- What waited for `d` is gone from the send queue, so that no entry is in flight any more (R3, R71). -/
theorem released_of_closed (h : Awaits s older x younger) (hclosed : Closed x.dest s t) : t.releaseInFlight = t := by
  obtain ⟨hsend, -⟩ := hclosed
  obtain ⟨-, -, -, -, -, holder, hyounger, -⟩ := id h
  refine t.releaseInFlight_none fun y hy => ?_
  rw [hsend, awaits_others h] at hy
  rcases List.mem_append.mp hy with hy | hy
  · exact holder y hy
  · exact hyounger y (List.mem_of_mem_filter hy)

/-- The close of the round in which an ACTIVE station's entry is settled with the closing of its destination. -/
theorem awaits_closes {y : ReachEntry} {gs : List Group} (h : Awaits s older x younger) (hactive : s.station = .active)
    (he : s.settleEntry x (readAnswer report) = e)
    (hframe : e.1 = { s with
      sendQueue := e.1.sendQueue, reach := s.reach.set x.dest.val y, slots := e.1.slots, returns := e.1.returns, engine := e.1.engine
      path := e.1.path })
    (hclosed : Closed x.dest s e.1) (htells : Tells e.2 gs) :
    ∃ t, exec (.answerClose report) s = .next t ∧
      t = { s with
        span := ended s.span, sendQueue := t.sendQueue, reach := t.reach, slots := t.slots, returns := t.returns
        engine := t.engine, path := t.path, completions := t.completions, choices := t.choices } ∧
      t.sendQueue = older ++ younger.filter (fun z => z.dest != x.dest) ∧
      SlotsEnd s t (fun f => f.dest = x.dest) ∧ t.returns = s.returns.filter (fun r => r.inFlight || r.requester != x.dest) ∧
      RoomFreed s t ∧ (∀ n, n ≠ x.dest → t.reachOf n = s.reachOf n) ∧ t.reachOf x.dest = y ∧ AppendsGroups s.completions t.completions gs := by
  have hreach : e.1.reach = s.reach.set x.dest.val y := by rw [hframe]
  have hcompletions : e.1.completions = s.completions := by rw [hframe]
  have hreachOf : ∀ n, e.1.reachOf n = (s.setReach x.dest y).reachOf n := fun n => by rw [State.reachOf, hreach]; rfl
  obtain ⟨-, -, -, -, -, -, -, -, hidle⟩ := id h
  obtain ⟨hsend, hslots, hreturns, hroom⟩ := id hclosed
  refine ⟨_, awaits_active h hactive he (spares_of_closing hidle (by rw [hframe]) (by rw [hframe]) (by rw [hframe]) hslots hroom), ?_,
    hsend.trans (awaits_others h), hslots, hreturns, hroom, fun n hn => (hreachOf n).trans (reachOf_set_ne hn y),
    (hreachOf x.dest).trans (State.reachOf_setReach_same (s := s) x.dest y), hcompletions ▸ appendsGroups_done htells⟩
  exact handedOn_closing (by rw [← hreach] at hframe; exact hframe)

/-- A closing leaves everything but the send queue, the fetch table, the return list and the engine. -/
theorem closeDestination_leaves (v : State) (d : Station) (status : Status) :
    (v.closeDestination d status).1 = { v with
      sendQueue := (v.closeDestination d status).1.sendQueue, slots := (v.closeDestination d status).1.slots
      returns := (v.closeDestination d status).1.returns, engine := (v.closeDestination d status).1.engine
      path := (v.closeDestination d status).1.path } := by
  rw [(v.closeDestination_spec d status).1]

/-- Settles O43, from the closing of the destination at the close of the round. -/
theorem refusedAndSilenceSettle : Obligations.RefusedAndSilenceSettle := by
  intro s older x younger report h hactive hcan d lane
  obtain ⟨hnotSelf, hnotContained⟩ := silent_not_self hcan
  have hlane : lane = fun status => laneRecords status (s.lane d) := by
    funext status
    rw [awaits_lane h]
    rfl
  by_cases hno : noReply report
  · have hrefused : report ≠ .code 3 := by rintro rfl; simp [noReply] at hno
    have hsettles : s.settleEntry x (readAnswer report) = (s.noReply d).andThen fun u => quiet u.releaseInFlight := by
      rcases readAnswer_noReply hno with h | h <;> rw [h] <;> rfl
    by_cases hsilence : (s.reachOf d).silence < 2
    · have hquiet := hsettles
      rw [noReply_counts hnotSelf (.inr hsilence), Effect.quiet_andThen, Nat.min_eq_left (Nat.succ_le_succ hsilence.le)] at hquiet
      refine ⟨_, awaits_active h hactive hquiet ⟨rfl, rfl, rfl, fun _ => id, id⟩, fun _ _ => ?_, fun hor => ?_⟩
      · rw [Effect.done_quiet, ← awaits_changed h SendEntry.release]
        rfl
      · rcases hor with ⟨-, htwo⟩ | hcode
        · exact absurd hsilence (Nat.not_lt.mpr htwo)
        · exact absurd hcode hrefused
    · have hclosed : Closed d s ((s.setReach d silentEntry).closeDestination d .unreachable).1 :=
        closed_closeDestination d .unreachable rfl rfl rfl rfl rfl rfl
      have hreleased : s.settleEntry x (readAnswer report) = (s.setReach d silentEntry).closeDestination d .unreachable := by
        rw [hsettles, noReply_closes hcan (Nat.not_lt.mp hsilence)]
        exact (andThen_congr (e := (s.setReach d silentEntry).closeDestination d .unreachable) (f := fun u => quiet u.releaseInFlight) (g := quiet)
          (congrArg quiet (released_of_closed h hclosed))).trans (Effect.andThen_quiet _)
      obtain ⟨t, hexec, hframe, hsend, hslots, hreturns, hroom, hothers, hentry, hgroups⟩ := awaits_closes h hactive hreleased
        (y := silentEntry) (closeDestination_leaves (s.setReach d silentEntry) d .unreachable) hclosed (tells_closeDestination _ d .unreachable)
      refine ⟨t, hexec, fun _ h => absurd h hsilence, fun _ => ⟨hframe, hsend, hslots, hreturns, hroom, hothers, fun _ => ⟨hentry, ?_⟩,
        fun h => absurd h hrefused⟩⟩
      rw [hlane]
      exact hgroups
  · by_cases hrefused : report = .code 3
    · subst hrefused
      set u := (s.closeLane d .destContained).1 with hu
      have hsettles : s.settleEntry x (readAnswer (.code 3)) = (s.closeLane d .destContained).andThen fun _ =>
          ((u.setReach d haltedEntry).closeDestination d .destContained).andThen fun v => (v, reachNotice .peerHalted d) :=
        andThen_congr (e := s.closeLane d .destContained) (f := fun v => v.replyRefused d)
          (g := fun _ => ((u.setReach d haltedEntry).closeDestination d .destContained).andThen fun v => (v, reachNotice .peerHalted d))
          (replyRefused_closes (s := u) hnotContained hnotSelf)
      have hclosed : Closed d s ((u.setReach d haltedEntry).closeDestination d .destContained).1 :=
        closed_closeDestination d .destContained (by rw [hu]; exact (List.filter_filter ..).trans (by simp)) rfl rfl rfl rfl rfl
      have htells : Tells ((s.closeLane d .destContained).andThen fun _ =>
          ((u.setReach d haltedEntry).closeDestination d .destContained).andThen fun v => (v, reachNotice .peerHalted d)).2
          [laneRecords .destContained (s.lane d), slotFailures s d .destContained, [.station .peerHalted 1 d.val]] := by
        have hempty : (u.setReach d haltedEntry).lane d = [] := by
          refine List.filter_eq_nil_iff.mpr fun y hy => ?_
          have := List.of_mem_filter (show y ∈ s.sendQueue.filter (fun z => z.dest != d) from hy)
          simpa using this
        have hclosing := tells_closeDestination (u.setReach d haltedEntry) d .destContained
        rw [hempty] at hclosing
        have hlaneTold : Tells (s.closeLane d .destContained).2 [laneRecords .destContained (s.lane d)] := by
          rw [(s.closeLane_spec d .destContained).2.1]
          exact .refl _
        refine (hlaneTold.add (hclosing.add (b := reachNotice .peerHalted d) (gs' := [[.station .peerHalted 1 d.val]]) (.refl _))).trans ?_
        exact .refl _
      obtain ⟨t, hexec, hframe, hsend, hslots, hreturns, hroom, hothers, hentry, hgroups⟩ := awaits_closes h hactive hsettles
        (y := haltedEntry) (closeDestination_leaves (u.setReach d haltedEntry) d .destContained) hclosed htells
      refine ⟨t, hexec, fun h => absurd h hno, fun _ => ⟨hframe, hsend, hslots, hreturns, hroom, hothers, fun h => absurd rfl h,
        fun _ => ⟨hentry, ?_⟩⟩⟩
      rw [hlane]
      exact hgroups
    · obtain ⟨t, hexec, -⟩ := Resets.everyCommandCompletes (.answerClose report) s
      refine ⟨t, hexec, fun h => absurd h hno, fun hor => ?_⟩
      rcases hor with ⟨hno', -⟩ | hcode
      · exact absurd hno' hno
      · exact absurd hcode hrefused

/-! ## The entry of a CONTAINED station -/

/-- A record that is no station notice is never coalesced (R178). -/
theorem mem_push_of_mem {c : Completion} (hc : ∀ k, c.isNotice k = false) {q : List Completion} (hmem : c ∈ q) (told : Completion) :
    c ∈ push q told := by
  cases told with
  | station k count arg =>
    cases hany : q.any (Completion.isNotice k) with
    | false =>
      rw [push_notice_new q k count arg hany]
      exact List.mem_append_left _ hmem
    | true =>
      rw [push_notice_again q k count arg hany]
      refine List.mem_map.mpr ⟨c, hmem, ?_⟩
      cases c with
      | station k' n a => simpa [Completion.isNotice] using hc k'
      | _ => rfl
  | _ => exact List.mem_append_left _ hmem

theorem mem_foldl_push {c : Completion} (hc : ∀ k, c.isNotice k = false) (g : List Completion) :
    ∀ q : List Completion, c ∈ q ∨ c ∈ g → c ∈ g.foldl push q := by
  induction g with
  | nil => exact fun q h => h.resolve_right (by simp)
  | cons d g ih =>
    intro q h
    refine ih (push q d) ?_
    rcases h with h | h
    · exact .inl (mem_push_of_mem hc h d)
    · rcases List.mem_cons.mp h with rfl | h
      · refine .inl ?_
        rw [push_of_not_notice q c hc]
        exact List.mem_append_right _ (.head _)
      · exact .inr h

/-- Every record handed on that is no station notice stands in the completion queue. -/
theorem mem_done {c : Completion} (hc : ∀ k, c.isNotice k = false) {g : Group} (hg : g ∈ groups e.2) (hmem : c ∈ g) : c ∈ e.done.completions := by
  obtain ⟨-, order, hperm, hcompletions⟩ := e.1.handOn_spec e.2.streams
  change c ∈ (e.1.handOn e.2.streams).completions
  rw [hcompletions]
  exact mem_foldl_push hc _ _ (.inr (List.mem_flatten.mpr ⟨g, hperm.mem_iff.mpr hg, hmem⟩))

/-- What the reach table makes of an answer: an entry, with or without the closing of its station (R63, R64, R68). -/
theorem bookAnswer_cases (s : State) (d : Station) (o : AnswerOutcome) :
    (∃ y, s.bookAnswer d o = quiet (s.setReach d y)) ∨
      ∃ y status told, s.bookAnswer d o = ((s.setReach d y).closeDestination d status).andThen fun v => (v, told) := by
  have hsilent : (∃ y, s.noReply d = quiet (s.setReach d y)) ∨
      ∃ y status told, s.noReply d = ((s.setReach d y).closeDestination d status).andThen fun v => (v, told) := by
    rcases s.noReply_cases d with ⟨-, h⟩ | ⟨-, -, h⟩ | ⟨-, -, h⟩ <;> rw [h]
    · exact .inl ⟨s.reachOf d, by rw [setReach_reachOf]⟩
    · exact .inr ⟨_, _, .none, (Effect.andThen_quiet _).symm⟩
    · exact .inl ⟨_, rfl⟩
  have hrefused : (∃ y, s.replyRefused d = quiet (s.setReach d y)) ∨
      ∃ y status told, s.replyRefused d = ((s.setReach d y).closeDestination d status).andThen fun v => (v, told) := by
    rcases (s.bookReply d).peerHalts_cases d with ⟨-, h⟩ | ⟨hcontained, hself, -⟩
    · exact .inl ⟨_, h⟩
    · have hentry : (s.bookReply d).reachOf d = bookedEntry (s.reachOf d) := by
        rw [bookReply_eq]
        exact State.reachOf_setReach_same (s := s) d (bookedEntry (s.reachOf d))
      rw [hentry] at hcontained hself
      exact .inr ⟨_, _, _, replyRefused_closes ((bookedEntry_state _).1.not.mp hcontained) ((bookedEntry_state _).2.not.mp hself)⟩
  cases o with
  | good code =>
    cases code with
    | refused => exact hrefused
    | _ => exact .inl ⟨_, rfl⟩
  | void => exact hsilent
  | silent => exact hsilent

/-- A station that holds no entry, no AWAITING slot and no engine in ROOM_WAIT has nothing but RETURNs to drop for a station that is closed. -/
theorem closeDestination_still {v : State} (d : Station) (status : Status) (hsend : v.sendQueue = []) (hslots : ∀ k, (v.slot k).state ≠ .awaiting)
    (hengine : v.engine ≠ .roomWait) :
    v.closeDestination d status =
      ({ v with returns := v.returns.filter fun r => r.inFlight || r.requester != d }, { Handed.none with sendQueue := [[]], fetch := [[]] }) := by
  have hkept : (v.failSlotsFor d status).1.slots = v.slots := by
    refine Vector.ext fun i hi => ?_
    have hslot := (slotsEnd_failSlotsFor v d status ⟨i, hi⟩).2 fun h => hslots _ h.1
    exact hslot
  have hroom : (v.closeDestination d status).1 =
      { v with
        sendQueue := v.sendQueue.filter fun y => y.dest != d, slots := (v.failSlotsFor d status).1.slots
        returns := v.returns.filter fun r => r.inFlight || r.requester != d } := State.leaveRoomWait_of_ne _ hengine
  have hlane : v.lane d = [] := by rw [State.lane, hsend, List.filter_nil]
  have hnone : slotFailures v d status = [] := List.filterMap_eq_nil_iff.mpr fun k _ => if_neg fun h => hslots k h.1
  refine Prod.ext ?_ ?_
  · rw [hroom, hkept, hsend, List.filter_nil, ← hsend]
  · rw [(v.closeDestination_spec d status).2, slotFailures_eq, hlane, hnone]
    rfl

section

variable (h : Awaits s older x younger)
include h

theorem failInFlight_eq :
    s.failInFlight = ({ s with sendQueue := older ++ younger }, { Handed.none with sendQueue := [[x.record .localContained]] }) := by
  rw [State.failInFlight, State.removeInFlight, awaits_removed h, awaits_alone h]
  rfl

/-- The entry of a CONTAINED station leaves with LOCAL_CONTAINED, but for a POST or SIGNAL on a good TAKEN (R55). -/
theorem settleContained_fails {o : AnswerOutcome} (ho : o ≠ .good .taken ∨ x.kind = .fetch) :
    s.settleContained x o =
      Effect.andThen ({ s with sendQueue := older ++ younger }, { Handed.none with sendQueue := [[x.record .localContained]] }) fun u =>
        u.bookAnswer x.dest o := by
  rw [State.settleContained, if_neg, failInFlight_eq h]
  exact fun ⟨htaken, hkind⟩ => ho.elim (· htaken) (hkind ·)

/-- The same where the reach table books the answer and closes nothing. -/
theorem contained_books {y : ReachEntry} (hcontained : s.station = .contained) (ho : readAnswer report ≠ .good .taken ∨ x.kind = .fetch)
    (hbooks : State.bookAnswer { s with sendQueue := older ++ younger } x.dest (readAnswer report) =
      quiet (State.setReach { s with sendQueue := older ++ younger } x.dest y)) :
    exec (.answerClose report) s = .next { s with
      span := ended s.span, sendQueue := older ++ younger, reach := s.reach.set x.dest.val y
      completions := s.completions ++ [x.record .localContained] } := by
  have hsettles : s.settleContained x (readAnswer report) =
      ({ s with sendQueue := older ++ younger, reach := s.reach.set x.dest.val y },
        { Handed.none with sendQueue := [[x.record .localContained]] }) := by
    rw [settleContained_fails h ho]
    exact (andThen_congr (g := fun _ => quiet (State.setReach { s with sendQueue := older ++ younger } x.dest y)) hbooks).trans
      (Prod.ext rfl (Handed.add_none _))
  rw [awaits_contained h hcontained hsettles ⟨rfl, rfl, rfl, fun _ => id, id⟩, done_of_group (g := [x.record .localContained]) rfl]
  rfl

/-- The same where it closes the destination. -/
theorem contained_closes {y : ReachEntry} {status : Status} {told : Handed} (hcontained : s.station = .contained)
    (ho : readAnswer report ≠ .good .taken ∨ x.kind = .fetch)
    (hcloses : State.bookAnswer { s with sendQueue := older ++ younger } x.dest (readAnswer report) =
      ((State.setReach { s with sendQueue := older ++ younger } x.dest y).closeDestination x.dest status).andThen fun v => (v, told)) :
    ∃ e : Effect, exec (.answerClose report) s = .next { e.done with span := ended s.span } ∧
      e.1 = ((State.setReach { s with sendQueue := older ++ younger } x.dest y).closeDestination x.dest status).1 ∧
      e.2 = { Handed.none with sendQueue := [[x.record .localContained]] }.add
        (((State.setReach { s with sendQueue := older ++ younger } x.dest y).closeDestination x.dest status).2.add told) := by
  set v := State.setReach { s with sendQueue := older ++ younger } x.dest y with hv
  have hsettles : s.settleContained x (readAnswer report) =
      ((v.closeDestination x.dest status).1, { Handed.none with sendQueue := [[x.record .localContained]] }.add
        ((v.closeDestination x.dest status).2.add told)) := by
    rw [settleContained_fails h ho]
    exact andThen_congr (g := fun _ => (v.closeDestination x.dest status).andThen fun v => (v, told)) hcloses
  obtain ⟨-, -, -, -, -, -, -, -, hidle⟩ := id h
  refine ⟨_, awaits_contained h hcontained hsettles ?_, rfl, rfl⟩
  have hframe := closeDestination_leaves v x.dest status
  refine spares_of_closing (p := fun f => f.dest = x.dest) hidle (by rw [hframe]; rfl) (by rw [hframe]; rfl) (by rw [hframe]; rfl)
    (slotsEnd_closeDestination v x.dest status) ?_
  exact roomFreed_leaveRoomWait rfl rfl rfl

end

theorem noReply_ne_taken (h : noReply report) : readAnswer report ≠ .good .taken := by
  rcases readAnswer_noReply h with h | h <;> simp [h]

theorem readAnswer_taken (h : report ≠ .code 1) : readAnswer report ≠ .good .taken := by
  unfold readAnswer
  split
  · simp
  · simp
  · rename_i c
    have hc : c ≠ 1 := fun hc => h (by rw [hc])
    rw [if_neg hc]
    split_ifs <;> simp

/-- Settles O44, by what the reach table makes of the answer after the entry has left. -/
theorem containedStationSettlesEntry : Obligations.ContainedStationSettlesEntry := by
  intro s older x younger h hcontained d booked kept failed
  have hbooks : ∀ {report}, (readAnswer report ≠ .good .taken ∨ x.kind = .fetch) →
      (State.bookAnswer { s with sendQueue := older ++ younger } d (readAnswer report) =
        quiet (State.bookReply { s with sendQueue := older ++ younger } d)) → exec (.answerClose report) s = .next failed := by
    intro report ho hbooked
    refine contained_books h hcontained ho ?_
    rw [hbooked, bookReply_eq]
    rfl
  refine ⟨fun hkind => ?_, fun hkind => hbooks (.inr hkind) rfl, hbooks (.inl (by decide)) rfl, hbooks (.inl (by decide)) rfl,
    hbooks (.inl (by decide)) rfl, fun report hreport => ?_, fun hholds => ?_⟩
  · have hsettles : s.settleContained x (readAnswer (.code 1)) = (s.entryTaken x).andThen fun u => quiet (u.bookReply d) := by
      rw [State.settleContained, if_pos ⟨rfl, hkind⟩]
      rfl
    obtain ⟨hleaves, hdone⟩ := done_entryTaken (s := s) hkind
    rw [awaits_contained h hcontained hsettles (by rw [Effect.andThen_fst, quiet_fst, hleaves]; exact ⟨rfl, rfl, rfl, fun _ => id, id⟩),
      done_andThen_aside (s.entryTaken x) (fun _ _ _ => rfl), hdone, bookReply_eq, State.removeInFlight, awaits_removed h]
    rfl
  · have hother : ∀ y ∈ older ++ younger, y.inFlight = false := fun y hy => by
      rw [← awaits_removed h] at hy
      simpa using List.of_mem_filter hy
    rcases bookAnswer_cases { s with sendQueue := older ++ younger } d (readAnswer report) with ⟨y, hquiet⟩ | ⟨y, status, told, hcloses⟩
    · exact ⟨_, contained_books h hcontained (.inl (readAnswer_taken hreport)) hquiet, rfl, hother, List.mem_append_right _ (.head _)⟩
    · obtain ⟨e, hexec, hstate, htold⟩ := contained_closes h hcontained (.inl (readAnswer_taken hreport)) hcloses
      have hframe := closeDestination_leaves (State.setReach { s with sendQueue := older ++ younger } d y) d status
      rw [← hstate] at hframe
      refine ⟨_, hexec, handedOn_closing ?_, fun z hz => hother z ?_, mem_done (e := e) (fun _ => rfl) (g := [x.record .localContained]) ?_ (.head _)⟩
      · rw [hframe]
        rfl
      · have hsend : e.1.sendQueue = (older ++ younger).filter fun z => z.dest != d := by
          rw [hstate, (State.closeDestination_spec _ d status).1]
          rfl
        exact List.mem_of_mem_filter (hsend ▸ hz)
      · rw [htold]
        exact (groups_add _ _).mem_iff.mpr (List.mem_append_left _ (.head _))
  · obtain ⟨hpart, -, -, hqueue, -, holder, hyounger, -, -⟩ := id h
    obtain ⟨hsends, hslots, hengine, -⟩ := hholds (Holding.held_of_takesPart hpart) hcontained
    have hempty : older ++ younger = [] := List.eq_nil_iff_forall_not_mem.mpr fun y hy => by
      have hin : y.inFlight = true := hsends y (by
        rw [hqueue]
        exact List.mem_append.mpr ((List.mem_append.mp hy).imp_right (List.mem_cons_of_mem x)))
      rcases List.mem_append.mp hy with hy | hy
      · rw [holder y hy] at hin
        cases hin
      · rw [hyounger y hy] at hin
        cases hin
    have hstill : ∀ y status, (State.setReach { s with sendQueue := older ++ younger } d y).closeDestination d status =
        ({ s with sendQueue := [], reach := s.reach.set d.val y, returns := kept }, { Handed.none with sendQueue := [[]], fetch := [[]] }) :=
      fun y status => by
        rw [closeDestination_still (v := State.setReach { s with sendQueue := older ++ younger } d y) d status hempty hslots
          (by rcases hengine with h | h <;> rw [h] <;> simp), ← hempty]
        rfl
    refine ⟨fun report hno => ?_, fun hstate => ?_, fun hstate hself => ?_⟩
    · have hbook : ∀ v : State, v.bookAnswer d (readAnswer report) = v.noReply d := fun v => by
        rcases readAnswer_noReply hno with h | h <;> rw [h] <;> rfl
      refine ⟨fun hcan hsilence => ?_, fun hself hcounts => ?_⟩
      · obtain ⟨e, hexec, hstate, htold⟩ := contained_closes h hcontained (.inl (noReply_ne_taken hno)) (told := .none)
          ((hbook _).trans ((noReply_closes (s := { s with sendQueue := older ++ younger }) hcan hsilence).trans (Effect.andThen_quiet _).symm))
        rw [hstill] at hstate htold
        have hone : (live e.2.streams).length ≤ 1 := by rw [htold]; exact le_rfl
        rw [hexec, Effect.done_of_one_block e hone, hstate, htold]
        rfl
      · rw [contained_books h hcontained (.inl (noReply_ne_taken hno))
          ((hbook _).trans (noReply_counts (s := { s with sendQueue := older ++ younger }) hself hcounts)), hempty]
        rfl
    · rw [← hempty]
      exact hbooks (.inl (by decide)) (replyRefused_contained (s := { s with sendQueue := older ++ younger }) hstate)
    · obtain ⟨e, hexec, hstate, htold⟩ := contained_closes h hcontained (report := .code 3) (.inl (by decide))
        (replyRefused_closes (s := { s with sendQueue := older ++ younger }) hstate hself)
      rw [hstill] at hstate htold
      refine ⟨_, hexec, ?_, ?_⟩
      · rw [handedOn_done, hstate]
        rfl
      · have htells : Tells e.2 [[x.record .localContained], [.station .peerHalted 1 d.val]] := by
          rw [htold]
          exact .refl _
        have hcompletions : e.1.completions = s.completions := by rw [hstate]
        exact hcompletions ▸ appendsGroups_done htells

end Sys2Proof.Settlement
end

section
/-! The RETURN in flight at its answer close (R107 to R110), and what is held for an answer (R81, R82, R89, R98). -/

namespace Sys2Proof.Answers

open Sys2Proof.Machine Sys2Proof.Safety Sys2Proof.Claims Sys2Proof.Events Sys2Proof.Acts Sys2Proof.Rounds Sys2Proof.Outcomes Sys2Proof.Broadcasts
  Sys2Proof.Engine Sys2Proof.Settlement

variable {s t u : State} {e : Effect} {report : AnswerReport}

/-! ## An engine in ROOM_WAIT -/

theorem head_of_read {o : Option Access} (h : o.any isRead = true) : ∃ a, o = some a ∧ isRead a = true := by
  cases o with
  | none => cases h
  | some a => exact ⟨a, rfl, h⟩

/-- The return list loses a second member in the same event: the engine that has gone on stays as it is (R101, R103). -/
theorem roomFreed_again (hidle : HolderIdle s) (h : RoomFreed s t) (hengine : u.engine = t.engine) (hpath : u.path = t.path)
    (hinbound : u.inbound = s.inbound) (hreturns : u.returns.length ≤ t.returns.length) : RoomFreed s u.leaveRoomWait := by
  obtain ⟨-, -, -, hread⟩ := hidle
  obtain ⟨hstays, hasks⟩ := h
  by_cases hgoes : s.engine = .roomWait ∧ t.returns.length < 8
  · obtain ⟨hwait, hplace⟩ := hgoes
    obtain ⟨a, hhead, hisRead⟩ := head_of_read (hread hwait)
    obtain ⟨hasksEngine, hasksPath⟩ := hasks a hwait hplace hhead hisRead
    have hgone : (asks s a).engine ≠ .roomWait := by
      rw [asks]
      split <;> simp
    have hkept : u.leaveRoomWait = u := u.leaveRoomWait_of_ne (by rw [hengine, hasksEngine]; exact hgone)
    rw [hkept]
    refine ⟨fun hor => (hor.elim (absurd hwait) fun hfull => absurd hfull (by omega)), fun b _ _ hhead' _ => ?_⟩
    cases hhead.symm.trans hhead'
    exact ⟨hengine.trans hasksEngine, hpath.trans hasksPath⟩
  · have hor : s.engine ≠ .roomWait ∨ 8 ≤ t.returns.length := (not_and_or.mp hgoes).imp_right Nat.not_lt.mp
    exact roomFreed_leaveRoomWait (hengine.trans (hstays hor).1) (hpath.trans (hstays hor).2) hinbound

/-! ## The RETURN in flight -/

/-- Where no slot changes. -/
theorem slotsEnd_none (hslots : t.slots = s.slots) : SlotsEnd s t fun _ => False :=
  fun i => ⟨fun h => h.2.elim, fun _ => by rw [State.slot, State.slot, hslots]⟩

theorem slotsEnd_congr {p : FetchSlot → Prop} (h : SlotsEnd s t p) (hs : u.slots = s.slots) {v : State} (ht : v.slots = t.slots) : SlotsEnd u v p := by
  intro i
  have hu : u.slot i = s.slot i := by rw [State.slot, State.slot, hs]
  have hv : v.slot i = t.slot i := by rw [State.slot, State.slot, ht]
  rw [hu, hv]
  exact h i

theorem slotFailures_congr (hslots : u.slots = s.slots) (d : Station) (status : Status) : slotFailures u d status = slotFailures s d status := by
  unfold slotFailures State.slot
  rw [hslots]

section

variable {older younger : List ReturnEntry} {r : ReturnEntry} (h : AwaitsReturn s older r younger)
include h

theorem returns_settles (o : AnswerOutcome) : s.settleCandidate o = s.settleReturn r.requester o := by
  obtain ⟨-, -, hsource, hreturns, hr, holder, -, -⟩ := h
  have hnone : older.find? (·.inFlight) = none := List.find?_eq_none.mpr fun y hy => by simp [holder y hy]
  have hreturn : s.inFlightReturn = some r := by
    rw [State.inFlightReturn, hreturns, List.find?_append, hnone, Option.none_or, List.find?_cons_of_pos hr]
  simp only [State.settleCandidate, hsource, hreturn]

theorem returns_removed : s.returns.filter (fun y => !y.inFlight) = older ++ younger := by
  obtain ⟨-, -, -, hreturns, hr, holder, hyounger, -⟩ := h
  have holder' : older.filter (fun y => !y.inFlight) = older := List.filter_eq_self.mpr fun y hy => by simp [holder y hy]
  have hyounger' : younger.filter (fun y => !y.inFlight) = younger := List.filter_eq_self.mpr fun y hy => by simp [hyounger y hy]
  rw [hreturns, List.filter_append, List.filter_cons_of_neg (by simp [hr]), holder', hyounger']

theorem returns_released : (s.returns.map fun y => { y with inFlight := false }) = older ++ { r with inFlight := false } :: younger := by
  obtain ⟨-, -, -, hreturns, -, holder, hyounger, -⟩ := h
  have hsame : ∀ l : List ReturnEntry, (∀ y ∈ l, y.inFlight = false) → (l.map fun y => { y with inFlight := false }) = l := fun l hl =>
    (List.map_congr_left fun y hy => by rw [← hl y hy]; rfl).trans (List.map_id l)
  rw [hreturns, List.map_append, List.map_cons, hsame older holder, hsame younger hyounger]

theorem returns_idle (p : ReturnEntry → Bool) : (older ++ younger).filter (fun y => y.inFlight || p y) = (older ++ younger).filter p := by
  obtain ⟨-, -, -, -, -, holder, hyounger, -⟩ := h
  refine List.filter_congr fun y hy => ?_
  have : y.inFlight = false := (List.mem_append.mp hy).elim (holder y) (hyounger y)
  rw [this, Bool.false_or]

/-- The close of the round in which the RETURN is settled. -/
theorem returns_exec {p : FetchSlot → Prop} (hstation : s.station = .active ∨ s.station = .contained)
    (he : s.settleReturn r.requester (readAnswer report) = e) (hspan : e.1.span = s.span) (hkept : e.1.station = s.station)
    (hinbound : e.1.inbound = s.inbound) (hslots : SlotsEnd s e.1 p) (hroom : RoomFreed s e.1) :
    exec (.answerClose report) s = .next { e.done with span := ended s.span } := by
  have hsettles := returns_settles h (readAnswer report)
  obtain ⟨hpart, hphase, -, -, -, -, -, hidle⟩ := h
  exact exec_settles hpart hphase hidle (by rcases hstation with h | h <;> simp [h]) (hsettles.trans he)
    (spares_of_closing hidle hspan hkept hinbound hslots hroom)

/-- The state `v` is `s` but for its reach table. -/
theorem returns_leaves {y : ReachEntry} :
    let v := (s.setReach r.requester y).removeReturn
    v = { s with returns := older ++ younger, reach := s.reach.set r.requester.val y, engine := v.engine, path := v.path } ∧ RoomFreed s v := by
  intro v
  refine ⟨?_, roomFreed_leaveRoomWait rfl rfl rfl⟩
  have hframe : v = _ := State.removeReturn_frame (s.setReach r.requester y)
  rw [hframe]
  exact congrArg (fun q => { s with returns := q, reach := s.reach.set r.requester.val y, engine := v.engine, path := v.path }) (returns_removed h)


/-- The RETURN leaves, with the entry of its requester and what is told. -/
theorem returns_leave {y : ReachEntry} {told : Handed} (hstation : s.station = .active ∨ s.station = .contained)
    (hsettles : s.settleReturn r.requester (readAnswer report) = ((s.setReach r.requester y).removeReturn, told)) :
    let e : Effect := ((s.setReach r.requester y).removeReturn, told)
    exec (.answerClose report) s = .next { e.done with span := ended s.span } ∧
      e.1 = { s with returns := older ++ younger, reach := s.reach.set r.requester.val y, engine := e.1.engine, path := e.1.path } ∧
      RoomFreed s e.1 := by
  intro e
  obtain ⟨hframe, hroom⟩ := returns_leaves h (y := y)
  refine ⟨?_, hframe, hroom⟩
  refine returns_exec h hstation hsettles ?_ ?_ ?_ (slotsEnd_none ?_) hroom
  all_goals exact (congrArg _ hframe).trans rfl

/-- The same where nothing is told. -/
theorem returns_leave_quiet {y : ReachEntry} (hstation : s.station = .active ∨ s.station = .contained)
    (hsettles : s.settleReturn r.requester (readAnswer report) = quiet (s.setReach r.requester y).removeReturn) :
    ∃ t, exec (.answerClose report) s = .next t ∧ RoomFreed s t ∧
      t = { s with
        span := ended s.span, returns := older ++ younger, reach := s.reach.set r.requester.val y, engine := t.engine, path := t.path } := by
  obtain ⟨hexec, hframe, hroom⟩ := returns_leave h hstation hsettles
  rw [done_of_none rfl] at hexec
  exact ⟨_, hexec, hroom, congrArg (fun v : State => { v with span := ended s.span }) hframe⟩

end

/-- What the engine goes on to does not depend on the reach table. -/
theorem removeReturn_setReach (s : State) (d : Station) (y : ReachEntry) : (s.setReach d y).removeReturn = s.removeReturn.setReach d y := by
  have hasks : ∀ (v : State) (a : Access), asks (v.setReach d y) a = (asks v a).setReach d y := fun v a => by
    unfold asks
    by_cases hfree : v.path.state = .free
    · rw [if_pos hfree, if_pos (show (v.setReach d y).path.state = .free from hfree)]
      rfl
    · rw [if_neg hfree, if_neg (show ¬ (v.setReach d y).path.state = .free from hfree)]
      rfl
  have hnext : ∀ v : State, nextHead (v.setReach d y) = (nextHead v).setReach d y := fun v => by
    have hhead : headAccess (v.setReach d y) = headAccess v := rfl
    rw [nextHead, nextHead, hhead]
    cases headAccess v with
    | none => rfl
    | some a =>
      change (if isRead a = true ∧ 8 ≤ v.returns.length then _ else asks (v.setReach d y) a) =
        State.setReach (if isRead a = true ∧ 8 ≤ v.returns.length then _ else asks v a) d y
      split
      · rfl
      · exact hasks v a
  set v : State := { s with returns := s.returns.filter fun r => !r.inFlight } with hv
  change (v.setReach d y).leaveRoomWait = v.leaveRoomWait.setReach d y
  by_cases hgoes : v.engine = .roomWait ∧ v.returns.length < Config.returnCapacity
  · have hleft : v.leaveRoomWait = v.applyHead := if_pos hgoes
    have hright : (v.setReach d y).leaveRoomWait = (v.setReach d y).applyHead := if_pos hgoes
    rw [hleft, hright, applyHead_eq, applyHead_eq, hnext]
  · have hleft : v.leaveRoomWait = v := if_neg hgoes
    have hright : (v.setReach d y).leaveRoomWait = v.setReach d y := if_neg hgoes
    rw [hleft, hright]

theorem closeDestination_filters (v : State) (d : Station) (status : Status) :
    (v.closeDestination d status).1 = { v with
      sendQueue := v.sendQueue.filter fun z => z.dest != d, returns := v.returns.filter fun z => z.inFlight || z.requester != d
      slots := (v.closeDestination d status).1.slots, engine := (v.closeDestination d status).1.engine
      path := (v.closeDestination d status).1.path } := by
  rw [(v.closeDestination_spec d status).1]

theorem settleReturn_noReply (d : Station) (hno : noReply report) :
    s.settleReturn d (readAnswer report) =
      (s.noReply d).andThen fun v => quiet (if (v.reachOf d).state = .unreachable then v.removeReturn else v.releaseReturn) := by
  rcases readAnswer_noReply hno with h | h <;> rw [h] <;> rfl

/-- The RETURN leaves with the closing of its requester, in either order of the two (R71, R109, R110). -/
theorem returns_close {older younger : List ReturnEntry} {r : ReturnEntry} {gs : List Group} {y : ReachEntry} (h : AwaitsReturn s older r younger)
    (hstation : s.station = .active ∨ s.station = .contained) (he : s.settleReturn r.requester (readAnswer report) = e)
    (hframe : e.1 = { s with
      sendQueue := s.sendQueue.filter fun z => z.dest != r.requester, reach := s.reach.set r.requester.val y
      returns := (older ++ younger).filter fun z => z.requester != r.requester, slots := e.1.slots, engine := e.1.engine, path := e.1.path })
    (hslots : SlotsEnd s e.1 fun f => f.dest = r.requester) (hroom : RoomFreed s e.1) (htells : Tells e.2 gs) :
    ∃ t, exec (.answerClose report) s = .next t ∧ RoomFreed s t ∧
      t = { s with
        span := ended s.span, returns := (older ++ younger).filter fun z => z.requester != r.requester
        reach := s.reach.set r.requester.val y, engine := t.engine, path := t.path
        sendQueue := s.sendQueue.filter fun z => z.dest != r.requester, slots := t.slots, completions := t.completions, choices := t.choices } ∧
      SlotsEnd s t (fun f => f.dest = r.requester) ∧ AppendsGroups s.completions t.completions gs := by
  have hcompletions : e.1.completions = s.completions := by rw [hframe]
  refine ⟨_, returns_exec h hstation he (by rw [hframe]) (by rw [hframe]) (by rw [hframe]) hslots hroom, hroom, ?_, hslots,
    hcompletions ▸ appendsGroups_done htells⟩
  exact (handedOn_done e _).trans ((congrArg (handedOn e (ended s.span)) hframe).trans rfl)

/-- The third no-reply closes the requester, and its RETURN leaves (R64, R71, R109). -/
theorem returns_silenced {older younger : List ReturnEntry} {r : ReturnEntry} (h : AwaitsReturn s older r younger)
    (hstation : s.station = .active ∨ s.station = .contained) (hno : noReply report) (hcan : canFallSilent (s.reachOf r.requester).state)
    (hsilence : 2 ≤ (s.reachOf r.requester).silence) :
    ∃ t, exec (.answerClose report) s = .next t ∧ RoomFreed s t ∧
      t = { s with
        span := ended s.span, returns := (older ++ younger).filter fun z => z.requester != r.requester
        reach := s.reach.set r.requester.val silentEntry, engine := t.engine, path := t.path
        sendQueue := s.sendQueue.filter fun z => z.dest != r.requester, slots := t.slots, completions := t.completions, choices := t.choices } ∧
      SlotsEnd s t (fun f => f.dest = r.requester) ∧ AppendsGroups s.completions t.completions
        [laneRecords .unreachable (s.lane r.requester), slotFailures s r.requester .unreachable] := by
  obtain ⟨-, -, -, -, -, -, -, hidle⟩ := id h
  set d := r.requester
  set v := s.setReach d silentEntry with hv
  have hsettles : s.settleReturn d (readAnswer report) = (v.closeDestination d .unreachable).andThen fun w => quiet w.removeReturn := by
    rw [settleReturn_noReply d hno, noReply_closes hcan hsilence]
    refine andThen_congr (e := v.closeDestination d .unreachable) (f := fun w => quiet (if (w.reachOf d).state = .unreachable then _ else _))
      (g := fun w => quiet w.removeReturn) (congrArg quiet (if_pos ?_))
    rw [closeDestination_reachOf, hv, State.reachOf_setReach_same]
    rfl
  have hw := closeDestination_filters v d .unreachable
  have htells := tells_closeDestination v d .unreachable
  have hslots := slotsEnd_closeDestination v d .unreachable
  obtain ⟨-, -, -, hfreed⟩ := closed_closeDestination (s := s) (u := v) d .unreachable rfl rfl rfl rfl rfl rfl
  generalize v.closeDestination d .unreachable = closes at hsettles hw htells hslots hfreed
  have hreturns : closes.1.returns.filter (fun y => !y.inFlight) = (older ++ younger).filter fun z => z.requester != d := by
    rw [hw]
    exact (List.filter_comm ..).trans ((congrArg (List.filter _) (returns_removed h)).trans (returns_idle h _))
  have hkept : closes.1.removeReturn.slots = closes.1.slots := by rw [State.removeReturn_frame]
  exact returns_close (y := silentEntry) h hstation hsettles
    (by
      rw [Effect.andThen_fst, quiet_fst, hkept]
      have hremoves := closes.1.removeReturn_frame
      rw [hreturns] at hremoves
      exact hremoves.trans ((congrArg (fun w : State => { w with
        returns := (older ++ younger).filter fun z => z.requester != d, engine := closes.1.removeReturn.engine
        path := closes.1.removeReturn.path }) hw).trans rfl))
    (slotsEnd_congr hslots rfl hkept)
    (roomFreed_again (u := { closes.1 with returns := closes.1.returns.filter fun y => !y.inFlight }) hidle hfreed rfl rfl (by rw [hw]; rfl)
      (List.length_filter_le ..))
    (gs := [laneRecords .unreachable (s.lane d), slotFailures s d .unreachable])
    (by rw [Effect.andThen_snd, quiet_snd, Handed.add_none]; exact htells)

/-- A REFUSED removes the RETURN and closes its requester (R68, R71, R110). -/
theorem returns_refused {older younger : List ReturnEntry} {r : ReturnEntry} (h : AwaitsReturn s older r younger)
    (hstation : s.station = .active ∨ s.station = .contained) (hcontained : (s.reachOf r.requester).state ≠ .contained)
    (hself : (s.reachOf r.requester).state ≠ .self) :
    ∃ t, exec (.answerClose (.code 3)) s = .next t ∧ RoomFreed s t ∧
      t = { s with
        span := ended s.span, returns := (older ++ younger).filter fun z => z.requester != r.requester
        reach := s.reach.set r.requester.val haltedEntry, engine := t.engine, path := t.path
        sendQueue := s.sendQueue.filter fun z => z.dest != r.requester, slots := t.slots, completions := t.completions, choices := t.choices } ∧
      SlotsEnd s t (fun f => f.dest = r.requester) ∧ AppendsGroups s.completions t.completions
        [laneRecords .destContained (s.lane r.requester), slotFailures s r.requester .destContained,
          [.station .peerHalted 1 r.requester.val]] := by
  obtain ⟨-, -, -, -, -, -, -, hidle⟩ := id h
  set d := r.requester
  set u := s.removeReturn with hu
  have hremoves : u = { s with returns := older ++ younger, engine := u.engine, path := u.path } :=
    (State.removeReturn_frame s).trans (by rw [returns_removed h])
  have hentry : u.reachOf d = s.reachOf d := by rw [hremoves]; rfl
  set v := u.setReach d haltedEntry with hv
  have hsettles : s.settleReturn d (readAnswer (.code 3)) =
      (v.closeDestination d .destContained).andThen fun w => (w, reachNotice .peerHalted d) :=
    (Effect.quiet_andThen u fun w => w.replyRefused d).trans
      (replyRefused_closes (by rw [hentry]; exact hcontained) (by rw [hentry]; exact hself))
  have hroomFirst : RoomFreed s u := roomFreed_leaveRoomWait rfl rfl rfl
  have hroom : RoomFreed s (v.closeDestination d .destContained).1 :=
    roomFreed_again (u := { ((v.closeLane d .destContained).andThen fun w => w.failSlotsFor d .destContained).1 with
        returns := u.returns.filter fun z => z.inFlight || z.requester != d }) hidle hroomFirst rfl rfl
      (by change u.inbound = _; rw [hremoves]) (List.length_filter_le ..)
  have hslots : SlotsEnd s (v.closeDestination d .destContained).1 fun f => f.dest = d :=
    slotsEnd_congr (slotsEnd_closeDestination v d .destContained) (by change s.slots = u.slots; rw [hremoves]) rfl
  have htells : Tells (v.closeDestination d .destContained).2
      [laneRecords .destContained (s.lane d), slotFailures s d .destContained] := by
    have hlane : v.lane d = s.lane d := by change u.lane d = _; rw [hremoves]; rfl
    rw [← hlane, ← slotFailures_congr (u := v) (by change u.slots = _; rw [hremoves])]
    exact tells_closeDestination v d .destContained
  have hfilters := closeDestination_filters v d .destContained
  exact returns_close (y := haltedEntry) h hstation hsettles
    (by
      have hchanged : v = { s with returns := older ++ younger, reach := s.reach.set d.val haltedEntry, engine := u.engine, path := u.path } :=
        congrArg (fun w : State => w.setReach d haltedEntry) hremoves
      rw [Effect.andThen_fst, ← returns_idle h]
      exact hfilters.trans (congrArg (fun w : State => { w with
        sendQueue := w.sendQueue.filter fun z => z.dest != d, returns := w.returns.filter fun z => z.inFlight || z.requester != d
        slots := (v.closeDestination d .destContained).1.slots, engine := (v.closeDestination d .destContained).1.engine
        path := (v.closeDestination d .destContained).1.path }) hchanged))
    hslots hroom (htells.add (b := reachNotice .peerHalted d) (gs' := [[.station .peerHalted 1 d.val]]) (.refl _))

/-- Settles O47, from the leaving of the RETURN and the closing of its requester. -/
theorem returnIsSettled : Obligations.ReturnIsSettled := by
  intro s older r younger h hstation d left
  obtain ⟨hpart, hphase, -, -, -, -, -, hidle⟩ := id h
  refine ⟨?_, fun c hc => ?_, fun hcontained => ?_, fun report hno hstays => ?_, fun report hno hunreachable => ?_, fun report hcloses => ?_⟩
  · have hsettles : s.settleReturn d (readAnswer (.code 1)) = quiet (s.setReach d (bookedEntry (s.reachOf d))).removeReturn := by
      change quiet (s.bookReply d).removeReturn = _
      rw [bookReply_eq]
      rfl
    obtain ⟨t, hexec, hroom, hframe⟩ := returns_leave_quiet h hstation hsettles
    exact ⟨t, hexec, hframe, hroom⟩
  · have hsettles : s.settleReturn d (readAnswer (.code c)) =
        ((s.setReach d (bookedEntry (s.reachOf d))).removeReturn, { Handed.none with returns := [[.station .returnStale 1 d.val]] }) := by
      have hbooked : s.setReach d (bookedEntry (s.reachOf d)) = s.bookReply d := (bookReply_eq s d).symm
      rw [hbooked]
      rcases hc with rfl | rfl | rfl <;> rfl
    obtain ⟨hexec, hframe, hroom⟩ := returns_leave h hstation hsettles
    rw [done_of_group (g := [.station .returnStale 1 d.val]) rfl] at hexec
    exact ⟨_, hexec, congrArg (fun v : State => { v with
      completions := push v.completions (.station .returnStale 1 d.val), span := ended s.span }) hframe, hroom⟩
  · have hsettles : s.settleReturn d (readAnswer (.code 3)) = quiet (s.setReach d (bookedEntry (s.reachOf d))).removeReturn := by
      have hkept : ∀ n, s.removeReturn.reachOf n = s.reachOf n := fun n => by rw [State.removeReturn_frame]; rfl
      change Effect.andThen (quiet s.removeReturn) (fun v => v.replyRefused d) = _
      rw [Effect.quiet_andThen, replyRefused_contained (by rw [hkept]; exact hcontained), bookReply_eq, removeReturn_setReach, hkept]
      rfl
    obtain ⟨t, hexec, hroom, hframe⟩ := returns_leave_quiet h hstation hsettles
    exact ⟨t, hexec, hframe, hroom⟩
  · have hcounts : s.noReply d = quiet (s.setReach d { s.reachOf d with silence := min ((s.reachOf d).silence + 1) 3 }) := by
      rcases hstays with hcontained | ⟨hcan, hsilence⟩
      · exact noReply_counts (by rw [hcontained]; simp) (.inl (by rw [hcontained]; simp))
      · exact noReply_counts (silent_not_self hcan).1 (.inr hsilence)
    have hopen : (s.reachOf d).state ≠ .unreachable := by
      rcases hstays with hcontained | ⟨hcan | hcan | hcan, -⟩ <;> simp [*]
    have hsettles := settleReturn_noReply (s := s) d hno
    rw [hcounts, Effect.quiet_andThen, State.reachOf_setReach_same, if_neg hopen, State.releaseReturn] at hsettles
    rw [exec_settles_quiet hpart hphase hidle (by rcases hstation with h | h <;> simp [h]) ((returns_settles h _).trans hsettles)
      ⟨rfl, rfl, rfl, fun _ => id, id⟩, ← returns_released h]
    rfl
  · have hcounts : s.noReply d = quiet (s.setReach d { s.reachOf d with silence := min ((s.reachOf d).silence + 1) 3 }) :=
      noReply_counts (by rw [hunreachable]; simp) (.inl (by rw [hunreachable]; simp))
    have hsettles := settleReturn_noReply (s := s) d hno
    rw [hcounts, Effect.quiet_andThen, State.reachOf_setReach_same, if_pos hunreachable] at hsettles
    exact returns_leave_quiet h hstation hsettles
  · rcases hcloses with ⟨hno, hcan, hsilence⟩ | ⟨rfl, hcontained, hself⟩
    · have hrefused : report ≠ .code 3 := by
        rintro rfl
        simp [noReply] at hno
      obtain ⟨t, hexec, hroom, hframe, hends, hgroups⟩ := returns_silenced h hstation hno hcan hsilence
      refine ⟨t, hexec, hroom, ?_, hends, fun h => absurd h hrefused, fun _ => hgroups⟩
      rw [if_neg hrefused]
      exact hframe
    · obtain ⟨t, hexec, hroom, hframe, hends, hgroups⟩ := returns_refused h hstation hcontained hself
      exact ⟨t, hexec, hroom, hframe, hends, fun _ => hgroups, fun h => absurd rfl h⟩

end Sys2Proof.Answers
end

section
/-! The raises of the SIGNALs in front of the inbound queue (R99, R102, R117, R118), as the apply engine makes them and as the claims state them, and what
an answer close makes of what is held for it (R81, R82, R89, R97, R98). -/

namespace Sys2Proof.Raises

open Sys2Proof.Machine Sys2Proof.Safety Sys2Proof.Claims Sys2Proof.Events Sys2Proof.Acts Sys2Proof.Rounds Sys2Proof.Outcomes Sys2Proof.Broadcasts
  Sys2Proof.Engine Sys2Proof.Settlement

variable {s t u : State} {e : Effect} {report : AnswerReport} {raises : List (SignalNo × Station)}

/-! ## Raises one after another -/

/-- The notices that the raises write, in their order. -/
def noticesOf (s : State) (raises : List (SignalNo × Station)) : List Completion := (raisedAll { s with completions := [] } raises).completions

theorem raised_of (h : t.signals = s.signals) (k : SignalNo) (source : Station) :
    raised t k source = { t with
      signals := (raised s k source).signals
      completions := t.completions ++ (raised { s with completions := [] } k source).completions } := by
  have hsignal : t.signalOf k = s.signalOf k := by rw [State.signalOf, State.signalOf, h]
  have hsignal' : ({ s with completions := [] } : State).signalOf k = s.signalOf k := rfl
  simp only [raised, hsignal, hsignal', h]
  cases (s.signalOf k).pending with
  | true => simp
  | false => cases (s.signalOf k).enabled <;> simp

/-- A raise as the apply engine makes it: its notice is handed on (R102, R117). -/
theorem raiseSignal_eq (s : State) (k : SignalNo) (source : Station) :
    s.raiseSignal k source =
      ({ s with signals := (raised s k source).signals },
        { Handed.none with signal := (raised { s with completions := [] } k source).completions.map fun c => [c] }) := by
  have hsignal : ({ s with completions := [] } : State).signalOf k = s.signalOf k := rfl
  simp only [State.raiseSignal, SignalEntry.raised, SignalEntry.raiseNotice, raised, hsignal]
  cases (s.signalOf k).pending with
  | true => rfl
  | false => cases (s.signalOf k).enabled <;> rfl

theorem raisedAll_cons (s : State) (r : SignalNo × Station) (raises : List (SignalNo × Station)) :
    raisedAll s (r :: raises) = raisedAll (raised s r.1 r.2) raises := rfl

theorem raised_signals (h : t.signals = s.signals) (k : SignalNo) (source : Station) : (raised t k source).signals = (raised s k source).signals := by
  rw [raised_of h]

/-- The raises write the signal table and the completion queue, and read the signal table. -/
theorem raisedAll_of (raises : List (SignalNo × Station)) : ∀ {t s : State}, t.signals = s.signals →
    raisedAll t raises = { t with signals := (raisedAll s raises).signals, completions := t.completions ++ noticesOf s raises } := by
  induction raises with
  | nil =>
    intro t s h
    simp [noticesOf, raisedAll, ← h]
  | cons r raises ih =>
    intro t s h
    have hnotices : noticesOf s (r :: raises) =
        (raised { s with completions := [] } r.1 r.2).completions ++ noticesOf (raised s r.1 r.2) raises :=
      congrArg State.completions (ih (raised_signals (t := { s with completions := [] }) (s := s) rfl r.1 r.2))
    rw [raisedAll_cons, raisedAll_cons, ih (raised_signals h r.1 r.2), hnotices, raised_of h]
    simp

theorem noticesOf_cons (s : State) (r : SignalNo × Station) (raises : List (SignalNo × Station)) :
    noticesOf s (r :: raises) = (raised { s with completions := [] } r.1 r.2).completions ++ noticesOf (raised s r.1 r.2) raises :=
  congrArg State.completions (raisedAll_of raises (raised_signals (t := { s with completions := [] }) (s := s) rfl r.1 r.2))

theorem noticesOf_congr (h : t.signals = s.signals) (raises : List (SignalNo × Station)) : noticesOf t raises = noticesOf s raises := by
  rw [noticesOf, raisedAll_of raises (t := { t with completions := [] }) h]
  rfl

/-- The engine raises the SIGNALs in front, each notice a group of its own (R99, R102). -/
theorem raiseHeads_eq {more : List InboundEntry} (hmore : signalNext more = false) (raises : List (SignalNo × Station)) : ∀ s : State,
    s.raiseHeads (signalEntries raises ++ more) =
      ({ s with inbound := more, signals := (raisedAll s raises).signals },
        { Handed.none with signal := (noticesOf s raises).map fun c => [c] }) := by
  induction raises with
  | nil =>
    intro s
    change s.raiseHeads more = quiet { s with inbound := more }
    cases more with
    | nil => rfl
    | cons x rest =>
      obtain ⟨op, source, provisional⟩ := x
      cases provisional with
      | true => rfl
      | false =>
        cases op with
        | signal k => cases hmore
        | _ => rfl
  | cons r raises ih =>
    intro s
    have hall := raisedAll_of raises (t := { s with signals := (raised s r.1 r.2).signals }) (s := raised s r.1 r.2) rfl
    have hnotices := noticesOf_congr (t := { s with signals := (raised s r.1 r.2).signals }) (s := raised s r.1 r.2) rfl raises
    change s.raiseHeads ({ op := .signal r.1, source := r.2, provisional := false } :: (signalEntries raises ++ more)) = _
    rw [State.raiseHeads_signal, raiseSignal_eq, noticesOf_cons, List.map_append, ← hnotices, raisedAll_cons]
    refine Prod.ext ?_ ?_
    · rw [Effect.andThen_fst, ih, hall]
    · rw [Effect.andThen_snd, ih]
      rfl

/-- The engine takes the head behind the SIGNALs in front (R99, R102). -/
theorem takeHead_eq {more : List InboundEntry} (hinbound : s.inbound = signalEntries raises ++ more) (hmore : signalNext more = false) :
    s.takeHead =
      (nextHead { s with inbound := more, signals := (raisedAll s raises).signals },
        { Handed.none with signal := (noticesOf s raises).map fun c => [c] }) := by
  rw [State.takeHead, hinbound, raiseHeads_eq hmore]
  refine Prod.ext ?_ (Handed.add_none _)
  exact applyHead_eq _

/-- The notices of the raises are no station notices. -/
theorem noticesOf_signals (s : State) (raises : List (SignalNo × Station)) : ∀ c ∈ noticesOf s raises, ∀ k, c.isNotice k = false := by
  induction raises generalizing s with
  | nil => simp [noticesOf, raisedAll]
  | cons r raises ih =>
    rw [noticesOf_cons]
    intro c hc
    rcases List.mem_append.mp hc with hc | hc
    · have hmem : ∀ k source, ∀ c ∈ (raised { s with completions := [] } k source).completions, c = .signal k source := fun k source c hc => by
        simp only [raised] at hc
        split at hc
        · cases hc
        · split at hc
          · simpa using hc
          · cases hc
      rw [hmem _ _ c hc]
      exact fun _ => rfl
    · exact ih _ c hc

/-- What the engine goes on to reads the inbound queue, the return list and the path, and writes the engine and the path. -/
theorem nextHead_of (hinbound : t.inbound = s.inbound) (hreturns : t.returns = s.returns) (hpath : t.path = s.path) :
    nextHead t = { t with engine := (nextHead s).engine, path := (nextHead s).path } := by
  rw [nextHead, nextHead, headAccess_congr hinbound, ← hreturns]
  cases headAccess s with
  | none => rw [← hpath]
  | some a =>
    by_cases hwaits : isRead a = true ∧ 8 ≤ t.returns.length
    · simp only [if_pos hwaits, ← hpath]
    · simp only [if_neg hwaits, asks, ← hpath]
      split <;> rfl

theorem nextHead_frame (s : State) : nextHead s = { s with engine := (nextHead s).engine, path := (nextHead s).path } := nextHead_of rfl rfl rfl

/-- An IDLE engine without an entry stays as it is (R99). -/
theorem nextHead_idle (hinbound : s.inbound = []) (hengine : s.engine = .idle) : nextHead s = s := by
  have hnone : headAccess s = none := by rw [headAccess, hinbound]; rfl
  rw [nextHead, hnone, ← hengine]

theorem aside_nextHead : Aside nextHead := fun t q n =>
  (nextHead_of (t := { t with completions := q, choices := n }) (s := t) rfl rfl rfl).trans
    (congrArg (fun u : State => { u with completions := q, choices := n }) (nextHead_frame t)).symm

theorem live_signals (gs : List Group) : (live { Handed.none with signal := gs }.streams).length ≤ 1 := by
  simp only [live, Handed.streams, Handed.none, List.map_cons, List.map_nil, List.filter_nil]
  simp only [List.filter_cons, List.filter_nil, List.isEmpty_nil, Bool.not_true, Bool.false_eq_true, if_false]
  split <;> simp

/-- The raises, with their notices in the completion queue. -/
theorem done_raises (s : State) (more : List InboundEntry) (raises : List (SignalNo × Station)) :
    Effect.done ({ s with inbound := more, signals := (raisedAll s raises).signals },
      { Handed.none with signal := (noticesOf s raises).map fun c => [c] }) = raisedAll { s with inbound := more } raises := by
  have hgroups : ({ Handed.none with signal := (noticesOf s raises).map fun c => [c] } : Handed).streams.flatten.flatten = noticesOf s raises := by
    change ((noticesOf s raises).map (fun c => [c]) ++ []).flatten = _
    rw [List.append_nil, ← List.flatMap_def, List.flatMap_singleton']
  rw [Effect.done_of_one_block _ (live_signals _), hgroups, foldl_push_of_not_notice _ _ (noticesOf_signals s raises),
    raisedAll_of raises (t := { s with inbound := more }) (s := s) rfl]

/-- The engine takes the head, and what it hands on has joined the completion queue. -/
theorem done_takeHead {more : List InboundEntry} (hinbound : s.inbound = signalEntries raises ++ more) (hmore : signalNext more = false) :
    s.takeHead.done = nextHead (raisedAll { s with inbound := more } raises) := by
  have htakes : s.takeHead = Effect.andThen ({ s with inbound := more, signals := (raisedAll s raises).signals },
      { Handed.none with signal := (noticesOf s raises).map fun c => [c] }) fun u => quiet (nextHead u) := by
    rw [takeHead_eq hinbound hmore]
    exact Prod.ext rfl (Handed.add_none _).symm
  rw [htakes, done_andThen_aside _ aside_nextHead, done_raises]

/-! ## What is held for an answer -/

/-- The addressed station's part, where its provisional entry has been settled. -/
theorem settleHolder_settled {taken : Bool} (h : ∀ x ∈ (s.settleProvisional taken).inbound, x.provisional = false) :
    s.settleHolder taken = (s.settleProvisional taken).settleHolder taken := by
  rw [State.settleHolder, State.settleHolder, State.settleProvisional_none _ taken h]

/-- An answer close at a station that did not send the parcel. -/
theorem exec_holds {driven : Option AnswerCode} (hpart : s.takesPart = true) (hphase : s.span.phase = .answer none driven)
    (hcandidate : s.span.candidate = none) (hstation : s.station ≠ .listening)
    (he : s.settleHolder (readAnswer report == .good .taken) = e) (hspan : e.1.span = s.span) (hkept : e.1.station = s.station) :
    exec (.answerClose report) s = .next { e.done with span := ended s.span } := by
  have hcloses : closing s (readAnswer report) = e.andThen fun u => quiet (goesOn false none u) := by
    rw [closing, s.settleCandidate_none _ hcandidate, Effect.quiet_andThen, he]
    simp only [countRound_eq]
    rfl
  rw [exec_answerClose hpart hphase (.inl rfl), hcloses, done_andThen_aside _ (aside_goesOn _ _)]
  have hdone : e.done.station ≠ .listening := hkept ▸ hstation
  have hspan' : e.done.span = s.span := hspan
  rw [goesOn, if_neg (by simp), counted, if_neg (by exact hdone), hspan']

/-- Settles O45, from the holder part after its entry is settled, and the head taken. -/
theorem provisionalEntryCommits : Obligations.ProvisionalEntryCommits := by
  intro s older p driven report hpart hphase hcandidate hlistening hslots hinbound holder hp hidle committed
  have hfilter : older.filter (fun x => !x.provisional) = older := List.filter_eq_self.mpr fun x hx => by simp [holder x hx]
  have hmap : older.map (fun x => { x with provisional := false }) = older :=
    (List.map_congr_left fun x hx => by rw [← holder x hx]; rfl).trans (List.map_id older)
  have hdiscards : s.settleProvisional false = { s with inbound := older } := by
    simp [State.settleProvisional, hinbound, hfilter, hp]
  have hcommits : s.settleProvisional true = { s with inbound := older ++ [{ p with provisional := false }] } := by
    simp [State.settleProvisional, hinbound, hmap]
  have hcommitted : ∀ x ∈ (s.settleProvisional true).inbound, x.provisional = false := fun x hx => by
    rw [hcommits] at hx
    rcases List.mem_append.mp hx with hx | hx
    · exact holder x hx
    · rw [List.mem_singleton.mp hx]
  refine ⟨fun hreport => ?_, ?_, ?_⟩
  · have hother : (readAnswer report == .good .taken) = false := beq_eq_false_iff_ne.mpr (readAnswer_taken hreport)
    have hquiet : s.settleHolder false = quiet { s with inbound := older } := by
      rw [settleHolder_settled (by rw [hdiscards]; exact holder), hdiscards]
      exact settleHolder_idle (s := { s with inbound := older }) _ holder hslots fun h => .inl (hidle h)
    rw [exec_holds hpart hphase hcandidate hlistening (by rw [hother, hquiet]) rfl rfl, Effect.done_quiet]
  · rintro rfl hstays
    have hquiet : s.settleHolder true = quiet { s with inbound := older ++ [{ p with provisional := false }] } := by
      rw [settleHolder_settled hcommitted]
      rw [hcommits] at hcommitted ⊢
      exact settleHolder_idle (s := { s with inbound := older ++ [{ p with provisional := false }] }) _ hcommitted hslots
        fun h => .inr (hstays.resolve_left (· h))
    rw [exec_holds (report := .code 1) hpart hphase hcandidate hlistening hquiet rfl rfl, Effect.done_quiet]
  · rintro rfl hengine hactive
    obtain rfl : older = [] := hidle hengine
    set v : State := { s with inbound := [{ p with provisional := false }] } with hv
    have htakes : s.settleHolder true = v.takeHead := by
      have hwakes : (s.settleProvisional true).wakeEngine = v.takeHead := by
        rw [hcommits]
        exact if_pos ⟨hengine, by rw [hactive]; simp⟩
      have hkept : v.takeHead.1.slots = s.slots := by rw [v.takeHead_frame.1]
      have hnone : v.takeHead.1.holdingSlot? = none := by
        rw [State.holdingSlot?, List.find?_eq_none]
        intro k _
        have hslot : v.takeHead.1.slot k = s.slot k := by
          rw [State.slot, hkept]
          rfl
        simpa [hslot] using hslots k
      rw [State.settleHolder, hwakes]
      refine (andThen_congr (g := quiet) ?_).trans (Effect.andThen_quiet _)
      simp only [hnone]
    have hexec : ∀ raises more, v.inbound = signalEntries raises ++ more → signalNext more = false →
        exec (.answerClose (.code 1)) s = .next { nextHead (raisedAll { v with inbound := more } raises) with span := ended s.span } :=
      fun raises more hinbound hmore => by
        have hframe := v.takeHead_frame.1
        rw [exec_holds (report := .code 1) hpart hphase hcandidate hlistening htakes (by rw [hframe]) (by rw [hframe]),
          done_takeHead hinbound hmore]
    refine ⟨fun hop => ?_, fun k hop => ?_⟩
    · have hmore : signalNext v.inbound = false := by
        cases h : p.op with
        | signal k => exact absurd h (hop k)
        | _ => simp [hv, signalNext, h]
      rw [hexec [] v.inbound rfl hmore]
      exact congrArg Host.Outcome.next ((congrArg (fun u : State => { u with span := ended s.span }) (nextHead_frame v)).trans
        (nextHead_of (t := committed) (s := v) rfl rfl rfl).symm)
    · have hinbound : v.inbound = signalEntries [(k, p.source)] ++ [] := by rw [hv, hop]; rfl
      set w : State := { v with inbound := [] } with hw
      have hraised := raised_of (t := w) (s := w) rfl k p.source
      rw [hexec [(k, p.source)] [] hinbound rfl]
      change Host.Outcome.next { nextHead (raised w k p.source) with span := ended s.span } = _
      rw [nextHead_idle (by rw [hraised]) (by rw [hraised]; exact hengine), raised_of (t := { committed with inbound := [] }) (s := w) rfl]
      exact congrArg (fun u : State => Host.Outcome.next { u with span := ended s.span }) hraised

theorem holdingSlot_unique {k : SlotNo} (hk : (s.slot k).state = .holding) (hone : ∀ j, (s.slot j).state = .holding → j = k) :
    s.holdingSlot? = some k := by
  cases h : s.holdingSlot? with
  | none => exact absurd hk (by simpa using List.find?_eq_none.mp h k (List.mem_finRange k))
  | some j => rw [hone j (by simpa using List.find?_some h)]

/-- The fetch of a slot ends with its record (R88). -/
theorem done_endFetch (s : State) (k : SlotNo) (status : Status) :
    (s.endFetch k status).done =
      { s with
        slots := s.slots.set k.val freeSlot
        completions := s.completions ++ [.request (s.slot k).cookie .fetch (s.slot k).dest status] } :=
  done_of_group (g := [.request (s.slot k).cookie .fetch (s.slot k).dest status]) rfl

/-- Settles O46, by the decision on the one HOLDING slot. -/
theorem holdingSlotIsDecided : Obligations.HoldingSlotIsDecided := by
  intro s k driven report hpart hphase hcandidate hlistening hprovisional hidle hk hone s' freed
  have hholder : ∀ taken, s.settleHolder taken = s.decideSlot k taken := fun taken => by
    have hwakes : s.wakeEngine = quiet s := by
      by_cases h : s.engine = .idle ∧ s.station ≠ .contained
      · rw [State.wakeEngine, if_pos h, s.takeHead_nil (hidle h.1), ← h.1]
      · exact if_neg h
    rw [State.settleHolder, s.settleProvisional_none taken hprovisional, hwakes, Effect.quiet_andThen, holdingSlot_unique hk hone]
  have hexec : ∀ e : Effect, s.decideSlot k (readAnswer report == .good .taken) = e →
      exec (.answerClose report) s = .next { e.done with span := ended s.span } := fun e he => by
    have hframe := (s.decideSlot_frame k (readAnswer report == .good .taken)).1
    rw [he] at hframe
    exact exec_holds hpart hphase hcandidate hlistening ((hholder _).trans he) (by rw [hframe]) (by rw [hframe])
  have hends : ∀ status, s.decideSlot k (readAnswer report == .good .taken) = s.endFetch k status →
      exec (.answerClose report) s = .next (freed status) := fun status he => by rw [hexec _ he, done_endFetch]
  have hother : report ≠ .code 1 → (readAnswer report == .good .taken) = false := fun h => beq_eq_false_iff_ne.mpr (readAnswer_taken h)
  refine ⟨fun hcontained => hends _ (if_pos hcontained), fun data hactive hreport hheld => ?_, fun hactive hreport hheld => hends _ ?_,
    fun hactive hreport hdeferred => ?_, fun hactive hreport hdeferred => hends _ ?_⟩
  · subst hreport
    have hlands : s.decideSlot k (readAnswer (.code 1) == .good .taken) = quiet (s.land k data) := by
      have htaken : (readAnswer (.code 1) == .good .taken) = true := rfl
      rw [State.decideSlot, if_neg (by simp [hactive]), if_pos htaken, hheld]
    rw [hexec _ hlands, Effect.done_quiet, State.land]
    rcases State.askLanding_cases (s.setSlot k { s.slot k with state := .landing, timer := .stopped, deferred := false }) k
      (.write (s.slot k).landing data) with ⟨hfree, h⟩ | ⟨hbusy, h⟩
    · rw [h, if_pos (show s.path.state = .free from hfree)]
      rfl
    · rw [h, if_neg (show ¬ s.path.state = .free from hbusy)]
      rfl
  · subst hreport
    have htaken : (readAnswer (.code 1) == .good .taken) = true := rfl
    rw [State.decideSlot, if_neg (by simp [hactive]), if_pos htaken, hheld]
  · have hfalls : s.decideSlot k (readAnswer report == .good .taken) = quiet (s.setSlot k { s.slot k with state := .awaiting, held := none }) := by
      rw [hother hreport, State.decideSlot, if_neg (by simp [hactive]), if_neg (by simp), if_neg (by simp [hdeferred])]
    rw [hexec _ hfalls, Effect.done_quiet]
    rfl
  · rw [hother hreport, State.decideSlot, if_neg (by simp [hactive]), if_neg (by simp), if_pos hdeferred]

end Sys2Proof.Raises
end

section
/-! The timers (R66, R73, R85, R86) and the endings of accesses to node memory (R84, R99 to R102, R106, R112 to R114, R117, R118, R129 to R135). -/

namespace Sys2Proof.Endings

open Sys2Proof.Machine Sys2Proof.Safety Sys2Proof.Claims Sys2Proof.Events Sys2Proof.Acts Sys2Proof.Outcomes Sys2Proof.Broadcasts Sys2Proof.Implication
  Sys2Proof.Raises

variable {s t u : State} {e : Effect} {x : InboundEntry} {rest more : List InboundEntry} {addr : Word} {data : List Word}
  {raises : List (SignalNo × Station)} {fault : Completion}

/-! ## The timers -/

/-- Settles O48, by the state of the entry and of the slot. -/
theorem timersExpire : Obligations.TimersExpire := by
  intro s d k hheld
  have hretry : exec (.retryTimerExpiry d) s = .next (s.expireRetry d) := congrArg Host.Outcome.next (if_neg (by simp [hheld]))
  have hfetch : exec (.fetchTimerExpiry k) s = .next (s.expireFetch k).done := congrArg Host.Outcome.next (if_neg (by simp [hheld]))
  refine ⟨fun hwaits => ?_, fun hstays => ?_, fun hstopped => ?_, fun hruns hawaits => ?_, fun hruns hholds => ?_⟩
  · rw [hretry, State.expireRetry, if_pos hwaits]
    rfl
  · rw [hretry, State.expireRetry, if_neg hstays]
  · rw [hfetch, State.expireFetch, if_pos hstopped, Effect.done_quiet]
  · rw [hfetch, State.expireFetch, if_neg hruns, if_pos hawaits, done_endFetch]
  · rw [hfetch, State.expireFetch, if_neg hruns, if_neg (by simp [hholds]), if_pos hholds, Effect.done_quiet]
    rfl

/-! ## The path -/

/-- The path serves the request that waits once its access has ended (R112, R113). -/
theorem pathServed (s : State) : PathServed s s.pathFallsFree := by
  unfold State.pathFallsFree
  refine ⟨fun ⟨happly, hland⟩ => ?_, fun a happly hturn => ?_, fun k a rest hland hturn => ?_⟩
  · rw [happly, hland]
  · rw [happly]
    cases hland : s.path.landingWaiting with
    | nil => rfl
    | cons b rest =>
      rw [hland] at hturn
      exact if_pos (hturn.resolve_left (by simp))
  · rw [hland]
    cases happly : s.path.applyWaiting with
    | none => rfl
    | some b =>
      rw [happly] at hturn
      exact if_neg (by rw [hturn.resolve_left (by simp)]; simp)

/-- Settles O52, from the path that falls FREE. -/
theorem pathServesUsersInTurn : Obligations.PathServesUsersInTurn := by
  intro s
  refine ⟨fun k a ending hheld hbusy => ⟨_, pathServed s, ?_⟩, fun a ending habandoned => ⟨_, pathServed s, ?_⟩⟩
  · change execLandingEnd ending s = _
    have hkept : s.pathFallsFree.slots = s.slots ∧ s.pathFallsFree.slot k = s.slot k ∧ s.pathFallsFree.completions = s.completions := by
      rw [s.pathFallsFree_frame]
      exact ⟨rfl, rfl, rfl⟩
    obtain ⟨hslots, hslot, hcompletions⟩ := hkept
    have hstatus : landStatus ending = if ending = .ok then .fetched else .landError := by cases ending <;> rfl
    simp only [execLandingEnd, hheld, hbusy, done_endFetch, hslots, hslot, hcompletions, hstatus]
  · change execAbandonedAccessEnd ending s = _
    simp only [execAbandonedAccessEnd, habandoned]

/-- After an access of the engine's own only a landing can wait (R112). -/
theorem pathFallsFree_eq (h : s.path.applyWaiting = none) : s.pathFallsFree = { s with path := freed s.path } := by
  rcases s.pathFallsFree_cases with ⟨-, hland, hfree⟩ | ⟨a, happly, -⟩ | ⟨k, a, rest, hland, -, hstarts⟩
  · simp only [hfree, freed, hland]
  · rw [h] at happly
    cases happly
  · simp only [hstarts, freed, hland, h, State.startLanding]

theorem freed_waiting (p : MemPath) : (freed p).applyWaiting = p.applyWaiting := by
  unfold freed
  split <;> rfl

/-! ## The engine goes on -/

theorem nextHead_engine (s : State) (y : EngineState) : nextHead { s with engine := y } = nextHead s :=
  (nextHead_of (t := { s with engine := y }) (s := s) rfl rfl rfl).trans (nextHead_frame s).symm

theorem raisedAll_engine (s : State) (y : EngineState) (raises : List (SignalNo × Station)) :
    raisedAll { s with engine := y } raises = { raisedAll s raises with engine := y } := by
  rw [raisedAll_of raises (t := { s with engine := y }) (s := s) rfl, raisedAll_of raises (t := s) (s := s) rfl]

theorem engineGoesOn_contained (h : s.station = .contained) : s.engineGoesOn = quiet { s with engine := .stopped } := if_pos h

theorem engineGoesOn_open (h : s.station ≠ .contained) : s.engineGoesOn = State.takeHead { s with engine := .idle } := if_neg h

/-- The engine takes the head behind the SIGNALs in front, which it raises (R99, R102). -/
theorem done_engineGoesOn (hstation : s.station ≠ .contained) (hinbound : s.inbound = signalEntries raises ++ more) (hmore : signalNext more = false) :
    s.engineGoesOn.done = nextHead (raisedAll { s with inbound := more } raises) := by
  rw [engineGoesOn_open hstation, done_takeHead (s := { s with engine := .idle }) hinbound hmore]
  exact (congrArg nextHead (raisedAll_engine { s with inbound := more } .idle raises)).trans (nextHead_engine _ _)

theorem dropHead_of (h : s.inbound = x :: rest) : State.dropHead { s with path := freed s.path } = { s with inbound := rest, path := freed s.path } := by
  rw [State.dropHead, h]
  rfl

theorem exec_applyWriteEnd (h : WritesHead s x rest addr data) (ending : AccessEnd) :
    exec (.applyWriteEnd ending) s = .next (State.postEnds { s with path := freed s.path } x ending).done := by
  obtain ⟨hheld, hinbound, -, -, hbusy, hwaiting⟩ := h
  change execApplyWriteEnd ending s = _
  simp only [execApplyWriteEnd, hheld, hbusy, hinbound, List.head?_cons, pathFallsFree_eq hwaiting]

/-- Settles O49, from the engine going on behind the SIGNALs in front. -/
theorem appliedPostLetsTheNextIn : Obligations.AppliedPostLetsTheNextIn := by
  intro s x rest addr data h applied
  have hrest : State.dropHead { s with path := freed s.path } = applied := dropHead_of h.2.1
  have hexec : exec (.applyWriteEnd .ok) s = .next applied.engineGoesOn.done := by
    rw [exec_applyWriteEnd h, ← hrest]
    rfl
  refine ⟨fun hcontained => ?_, fun raises more hopen hqueue hmore => ?_⟩
  · rw [hexec, engineGoesOn_contained (s := applied) hcontained, Effect.done_quiet]
  · rw [hexec, done_engineGoesOn (s := applied) hopen hqueue hmore]

theorem exec_applyReadEnd {length : Nat} {tag : SlotNo} (h : ReadsHead s x rest addr length tag) (ending : ReadEnd) :
    exec (.applyReadEnd ending) s =
      .next (State.joinReturn { s with inbound := rest, path := freed s.path } x.source tag (readResult length ending)).engineGoesOn.done := by
  obtain ⟨hheld, hinbound, hop, -, hbusy, hwaiting⟩ := h
  change execApplyReadEnd ending s = _
  have hends : State.fetchEnds { s with path := freed s.path } x ending =
      ((State.dropHead { s with path := freed s.path }).joinReturn x.source tag (readResult length ending)).engineGoesOn := by
    simp only [State.fetchEnds, hop]
  rw [dropHead_of hinbound] at hends
  rw [← hends, ← pathFallsFree_eq hwaiting]
  simp only [execApplyReadEnd, hheld, hbusy, hinbound, List.head?_cons]

/-- Settles O51, from the RETURN that joins and the engine going on. -/
theorem readEndsWithAReturn : Obligations.ReadEndsWithAReturn := by
  intro s x rest addr length tag ending h closed result read joined hclosed hopen
  have hresult : result = readResult length ending := by cases ending <;> rfl
  have hjoins : State.joinReturn { s with inbound := rest, path := freed s.path } x.source tag (readResult length ending) = read joined := by
    rcases State.joinReturn_cases { s with inbound := rest, path := freed s.path } x.source tag (readResult length ending) with
      ⟨hstate, hjoin⟩ | ⟨hreachable, hcontained, hjoin⟩
    · rw [hjoin, hclosed hstate]
      simp [read]
    · rw [hjoin, hopen fun h => h.elim hreachable hcontained, hresult]
  have hexec := exec_applyReadEnd h ending
  rw [hjoins] at hexec
  refine ⟨fun hcontained => ?_, fun raises more hstation hqueue hmore => ?_⟩
  · rw [hexec, engineGoesOn_contained (s := read joined) hcontained, Effect.done_quiet]
  · rw [hexec, done_engineGoesOn (s := read joined) hstation hqueue hmore]

/-! ## A fault told among the notices of the raises -/

theorem live_notices {notices : List Completion} (h : notices ≠ []) (gs : List Group) :
    live [notices.map fun d => [d], gs] = (notices.map fun d => [d]) :: live [gs] := by
  have hfull : (notices.map fun d => [d]).filter (fun g : Group => !g.isEmpty) = notices.map fun d => [d] :=
    List.filter_eq_self.mpr fun g hg => by
      obtain ⟨d, -, rfl⟩ := List.mem_map.mp hg
      rfl
  simp only [live, List.map_cons, List.map_nil, hfull]
  rw [List.filter_cons_of_pos (by simp [h])]

theorem interleave_alone (fuel c : Nat) (gs : List Group) : interleave fuel c [gs] = gs.flatten := by
  cases fuel <;> simp [interleave]

/-- One record of one block stands somewhere among those of another, which keep their order (R176). -/
theorem interleave_two (told : Completion) : ∀ (fuel c : Nat) (notices : List Completion), notices ≠ [] →
    ∃ before after, notices = before ++ after ∧ interleave fuel c [notices.map fun d => [d], [[told]]] = before ++ told :: after := by
  intro fuel
  induction fuel with
  | zero =>
    intro c notices _
    refine ⟨notices, [], (List.append_nil _).symm, ?_⟩
    have hflat : (notices.map fun d => [d]).flatten = notices := by rw [← List.flatMap_def, List.flatMap_singleton']
    simp [interleave, hflat]
  | succ fuel ih =>
    intro c notices hne
    rcases Nat.mod_two_eq_zero_or_one c with hc | hc
    · cases notices with
      | nil => exact absurd rfl hne
      | cons d notices =>
        have hnext : interleave (fuel + 1) c [(d :: notices).map fun d => [d], [[told]]] =
            d :: interleave fuel (c / 2) (live [notices.map fun d => [d], [[told]]]) := by
          simp [interleave, hc]
        rw [hnext]
        by_cases hlast : notices = []
        · have halone : live [notices.map fun d => [d], [[told]]] = [[[told]]] := by rw [hlast]; rfl
          rw [halone, interleave_alone]
          exact ⟨[d], [], by rw [hlast]; rfl, rfl⟩
        · rw [live_notices hlast]
          obtain ⟨before, after, hsplit, hinter⟩ := ih (c / 2) notices hlast
          exact ⟨d :: before, after, by rw [hsplit]; rfl, congrArg (d :: ·) hinter⟩
    · refine ⟨[], notices, rfl, ?_⟩
      have hnext : interleave (fuel + 1) c [notices.map fun d => [d], [[told]]] =
          told :: interleave fuel (c / 2) (live [notices.map fun d => [d], []]) := by
        simp [interleave, hc]
      have hflat : (notices.map fun d => [d]).flatten = notices := by rw [← List.flatMap_def, List.flatMap_singleton']
      rw [hnext, live_notices hne]
      exact congrArg (told :: ·) ((interleave_alone fuel (c / 2) _).trans hflat)

/-- The notices of the raises and one record of the containment unit are handed on (R176, log 2). -/
theorem done_telling (v : State) (notices : List Completion) (told : Completion) :
    let t := Effect.done (v, { Handed.none with signal := notices.map fun d => [d], contain := [[told]] })
    (∃ before after, notices = before ++ after ∧ t.completions = (before ++ told :: after).foldl push v.completions) ∧
      (notices = [] → t.choices = v.choices) := by
  intro t
  have hlive : live { Handed.none with signal := notices.map fun d => [d], contain := [[told]] }.streams =
      live [notices.map fun d => [d], [[told]]] := rfl
  by_cases hnone : notices = []
  · subst hnone
    exact ⟨⟨[], [], rfl, rfl⟩, fun _ => rfl⟩
  · refine ⟨?_, fun h => absurd h hnone⟩
    obtain ⟨before, after, hsplit, hinter⟩ := interleave_two told (live [notices.map fun d => [d], [[told]]]).flatten.length
      (Config.choice v.choices) notices hnone
    refine ⟨before, after, hsplit, ?_⟩
    rw [← hinter]
    change (arrange _ _).foldl push v.completions = _
    rw [arrange, hlive, live_notices hnone]
    rfl

/-- The engine goes on in the event that tells `fault` (R99, R102, R176). -/
theorem goesOnTelling_done (hstation : s.station ≠ .contained) (hinbound : s.inbound = signalEntries raises ++ more)
    (hmore : signalNext more = false) :
    GoesOnTelling { s with inbound := more }
      (Effect.andThen (s, { Handed.none with contain := [[fault]] }) State.engineGoesOn).done fault raises := by
  set v : State := { s with engine := .idle, inbound := more, signals := (raisedAll s raises).signals } with hv
  have htakes : Effect.andThen (s, { Handed.none with contain := [[fault]] }) State.engineGoesOn =
      (nextHead v, { Handed.none with signal := (noticesOf s raises).map fun d => [d], contain := [[fault]] }) := by
    have hgoes : s.engineGoesOn = (nextHead v, { Handed.none with signal := (noticesOf s raises).map fun d => [d] }) := by
      rw [engineGoesOn_open hstation, takeHead_eq (s := { s with engine := .idle }) hinbound hmore, raisedAll_engine,
        noticesOf_congr (t := { s with engine := .idle }) (s := s) rfl]
    exact andThen_congr (g := fun _ => (nextHead v, { Handed.none with signal := (noticesOf s raises).map fun d => [d] })) hgoes
  have hcompletions : (nextHead v).completions = s.completions := by rw [nextHead_frame]
  have hchoices : (nextHead v).choices = s.choices := by rw [nextHead_frame]
  obtain ⟨hsplit, hkept⟩ := done_telling (nextHead v) (noticesOf s raises) fault
  rw [htakes]
  rw [hcompletions] at hsplit
  rw [hchoices] at hkept
  have hnotices : (raisedAll { { s with inbound := more } with completions := [] } raises).completions = noticesOf s raises :=
    noticesOf_congr (t := { s with inbound := more }) (s := s) rfl raises
  generalize hdone : Effect.done _ = t at hsplit hkept
  refine ⟨?_, ?_⟩
  · have hframe : t = { nextHead v with completions := t.completions, choices := t.choices } := by
      rw [← hdone]
      rfl
    rw [raisedAll_of raises (t := { s with inbound := more }) (s := s) rfl]
    set w : State := { s with inbound := more, signals := (raisedAll s raises).signals, completions := s.completions ++ noticesOf s raises } with hw
    have hengine := nextHead_of (t := v) (s := w) rfl rfl rfl
    rw [nextHead_frame w]
    exact hframe.trans (congrArg (fun u : State => { u with completions := t.completions, choices := t.choices }) hengine)
  · intro notices
    have hsame : notices = noticesOf s raises := hnotices
    rw [hsame]
    exact ⟨hsplit, hkept⟩

/-! ## An apply fault -/

theorem logged_leaves (c : ContainUnit) (r : FaultRecord) :
    (logged c r).pendingContain = c.pendingContain ∧ (logged c r).late = c.late := by
  unfold logged
  split <;> exact ⟨rfl, rfl⟩

theorem containFrozen_iff (s : State) : s.containFrozen = true ↔ s.source? = some .contain := by
  rw [State.containFrozen, State.source?]
  cases s.span.candidate with
  | none => simp
  | some c => simp

/-- The engine drops the post that has failed and goes on (R100, R130). -/
theorem fault_goesOn {c : ContainUnit} (h : WritesHead s x rest addr data) (hopen : s.station ≠ .contained) (hpolicy : s.policy = .report)
    (hfault : State.applyFault { s with path := freed s.path } x =
      ({ s with path := freed s.path, contain := c }, { Handed.none with contain := [[fault]] }))
    (hqueue : rest = signalEntries raises ++ more) (hmore : signalNext more = false) :
    ∃ t, exec (.applyWriteEnd .error) s = .next t ∧
      GoesOnTelling { s with path := freed s.path, inbound := more, contain := c } t fault raises := by
  have hends : State.postEnds { s with path := freed s.path } x .error =
      Effect.andThen ({ s with path := freed s.path, inbound := rest, contain := c }, { Handed.none with contain := [[fault]] }) State.engineGoesOn := by
    have hdrops : State.dropHead { s with path := freed s.path, contain := c } = { s with path := freed s.path, inbound := rest, contain := c } :=
      congrArg (fun u : State => { u with contain := c }) (dropHead_of h.2.1)
    have hreports : ¬(s.station = .contained ∨ s.policy = .halt) := by rw [hpolicy]; simp [hopen]
    refine (if_neg hreports).trans ?_
    rw [hfault]
    exact congrArg (fun u : State => Effect.andThen (u, _) State.engineGoesOn) hdrops
  exact ⟨_, (exec_applyWriteEnd h .error).trans (by rw [hends]),
    goesOnTelling_done (s := { s with path := freed s.path, inbound := rest, contain := c }) hopen hqueue hmore⟩

/-- The engine of a station that stops at the fault (R132 to R134). -/
theorem fault_stops (h : WritesHead s x rest addr data) (hstops : s.station = .contained ∨ s.policy = .halt) :
    exec (.applyWriteEnd .error) s = .next (State.applyFault { s with path := freed s.path, engine := .stopped } x).done := by
  have hends : State.postEnds { s with path := freed s.path } x .error = State.applyFault { s with path := freed s.path, engine := .stopped } x :=
    if_pos hstops
  rw [exec_applyWriteEnd h, hends]

/-- The fault as the containment unit records it (R144). -/
theorem recordFault_eq {u : State} (hop : x.op = .post addr data) (hcontain : u.contain = s.contain) (halted : Bool) :
    u.recordFault x halted =
      ({ u with
        contain := logged s.contain { cause := .applyFault, peer := x.source, addr := addr, length := data.length, halted := halted } },
        { Handed.none with contain := [[.station .localFault 1 x.source.val]] }) := by
  have hrecord : x.faultRecord halted = { cause := .applyFault, peer := x.source, addr := addr, length := data.length, halted := halted } := by
    simp only [InboundEntry.faultRecord, InboundEntry.range, hop]
  rw [State.recordFault, addFault_eq, hrecord, hcontain]
  rfl

/-- The station enters containment with the post at its head (R132, R135). -/
theorem fault_contains (h : WritesHead s x rest addr data) (hactive : s.station = .active) (hpolicy : s.policy = .halt)
    (hflag : s.contain.flag = false) :
    ∃ t, exec (.applyWriteEnd .error) s = .next t ∧
      t = { s with
        path := freed s.path, station := .contained, engine := .stopped, sendQueue := s.sendQueue.filter (·.inFlight)
        slots := t.slots, completions := t.completions, choices := t.choices
        contain := { logged s.contain { cause := .applyFault, peer := x.source, addr := addr, length := data.length, halted := true } with
          flag := true, cause := some .applyFault, late := 0
          pendingContain := some { mode := .halted, cause := .applyFault, named := 0, addr := addr, length := data.length } } } ∧
      SlotsEnd s t (fun _ => True) ∧
      AppendsGroups s.completions t.completions
        [sendFlush s.sendQueue, slotFlush s fun _ => false, [.station .localFault 1 x.source.val]] := by
  obtain ⟨-, -, hop, -, -, hwaiting⟩ := id h
  set fault : Completion := .station .localFault 1 x.source.val
  set w : State := { s with
    path := freed s.path, engine := .stopped
    contain := logged s.contain { cause := .applyFault, peer := x.source, addr := addr, length := data.length, halted := true } } with hw
  set v := w.setContained .applyFault addr data.length with hv
  have hstops : v.stopEngine = v := by
    have hnone : { v.path with applyWaiting := none } = v.path := by
      have : v.path.applyWaiting = none := (freed_waiting s.path).trans hwaiting
      rw [← this]
    have hstop : v.stopEngine = { v with engine := .stopped, path := { v.path with applyWaiting := none } } := if_neg (by simp [hv, hw, State.setContained])
    rw [hstop, hnone]
    rfl
  set e : Effect := Effect.andThen (w, { Handed.none with contain := [[fault]] }) fun _ => v.flushSends.andThen State.flushSlots with he
  have hfault : State.applyFault { s with path := freed s.path, engine := .stopped } x = e := by
    have hhalts : State.applyFault { s with path := freed s.path, engine := .stopped } x =
        (State.recordFault { s with path := freed s.path, engine := .stopped } x true).andThen fun u =>
          u.enterContainment .applyFault x.range.1 x.range.2 := by
      have hoffline : ¬ s.station = .offline := by rw [hactive]; simp
      have hopen : ¬(s.station = .contained ∨ s.contain.flag = true) := by rw [hactive, hflag]; simp
      exact (if_neg hoffline).trans ((if_neg hopen).trans (if_pos hpolicy))
    have hrange : x.range = (addr, data.length) := by rw [InboundEntry.range, hop]
    rw [hhalts, recordFault_eq (s := s) (u := { s with path := freed s.path, engine := .stopped }) hop rfl, hrange]
    refine andThen_congr (g := fun _ => v.flushSends.andThen State.flushSlots) ?_
    change v.stopEngine.flushSends.andThen State.flushSlots = _
    rw [hstops]
  have htells : Tells e.2 [sendFlush s.sendQueue, slotFlush s fun _ => false, [fault]] := by
    have hsends : Tells v.flushSends.2 [sendFlush s.sendQueue] := .refl _
    have hslots : Tells v.flushSends.1.flushSlots.2 [slotFlush s fun _ => false] := flushSlots_tells _
    have htold : Tells { Handed.none with contain := [[fault]] } [[fault]] := .refl _
    refine (htold.add (hsends.add hslots)).perm ?_
    exact (List.perm_append_comm (l₁ := [[fault]]) (l₂ := [sendFlush s.sendQueue, slotFlush s fun _ => false]))
  exact ⟨e.done, (fault_stops h (.inr hpolicy)).trans (by rw [hfault]), rfl, slotsEnd_flushSlots v.flushSends.1, appendsGroups_done htells⟩

/-- Settles O50, by policy and station state, with the one record told among the notices of the raises. -/
theorem applyFaultByPolicy : Obligations.ApplyFaultByPolicy := by
  intro s x rest addr data h record fault told
  obtain ⟨-, -, hop, -, -, hwaiting⟩ := id h
  have hrange : x.range = (addr, data.length) := by rw [InboundEntry.range, hop]
  have hrecords : ∀ (y : EngineState) halted, State.recordFault { s with path := freed s.path, engine := y } x halted =
      ({ s with path := freed s.path, engine := y, contain := logged s.contain (record halted) }, { Handed.none with contain := [[fault]] }) :=
    fun y halted => recordFault_eq (u := { s with path := freed s.path, engine := y }) (s := s) hop rfl halted
  refine ⟨fun raises more hactive hpolicy hflag hqueue hmore => ?_, fun hactive hpolicy hflag => ?_, fun hcontained => ?_,
    fun raises more hoffline hpolicy hqueue hmore => ?_, fun hoffline hpolicy hflag => ?_⟩
  · intro dropped
    have hopen : s.station ≠ .contained := by rw [hactive]; simp
    have hfault : State.applyFault { s with path := freed s.path } x =
        ({ s with
          path := freed s.path
          contain := (logged s.contain (record false)).report s.containFrozen x.source addr data.length },
          { Handed.none with contain := [[fault]] }) := by
      have hreports : State.applyFault { s with path := freed s.path } x =
          (State.recordFault { s with path := freed s.path } x false).andThen fun u =>
            quiet { u with contain := u.contain.report u.containFrozen x.source x.range.1 x.range.2 } := by
        have hoffline : ¬ s.station = .offline := by rw [hactive]; simp
        have hfree : ¬(s.station = .contained ∨ s.contain.flag) := by simp [hopen, hflag]
        have hnot : ¬ s.policy = .halt := by rw [hpolicy]; simp
        exact (if_neg hoffline).trans ((if_neg hfree).trans (if_neg hnot))
      rw [hreports, hrecords s.engine false, hrange]
      rfl
    obtain ⟨hpending, hlate⟩ := logged_leaves s.contain (record false)
    refine ⟨fun hnone => ?_, fun p hp hreported => ?_⟩
    · have hreport := fault_goesOn h hopen hpolicy hfault hqueue hmore
      simp only [ContainUnit.report, hpending, hnone] at hreport
      rw [← hlate]
      exact hreport
    · have hreport := fault_goesOn h hopen hpolicy hfault hqueue hmore
      simp only [ContainUnit.report, hpending, hp, if_pos hreported, hlate, containFrozen_iff] at hreport
      exact hreport
  · exact fault_contains h hactive hpolicy hflag
  · have hfault : State.applyFault { s with path := freed s.path, engine := .stopped } x =
        State.recordFault { s with path := freed s.path, engine := .stopped } x false :=
      (if_neg (show ¬ s.station = .offline by rw [hcontained]; simp)).trans (if_pos (.inl hcontained))
    rw [fault_stops h (.inl hcontained), hfault, hrecords .stopped false, done_of_group (g := [fault]) rfl]
    rfl
  · have hfault : State.applyFault { s with path := freed s.path } x = State.recordFault { s with path := freed s.path } x false :=
      (if_pos hoffline).trans (if_neg fun hand => by
        have : s.policy = .halt := hand.1
        rw [hpolicy] at this
        cases this)
    rw [hrecords s.engine false] at hfault
    exact fault_goesOn h (by rw [hoffline]; simp) hpolicy hfault hqueue hmore
  · have hfault : State.applyFault { s with path := freed s.path, engine := .stopped } x =
        (State.recordFault { s with path := freed s.path, engine := .stopped } x true).andThen fun u =>
          quiet { u with contain := { u.contain with flag := true, cause := some .applyFault } } :=
      (if_pos hoffline).trans (if_pos ⟨hpolicy, by rw [Bool.not_eq_true']; exact hflag⟩)
    rw [fault_stops h (.inr hpolicy), hfault, hrecords .stopped true, done_of_group (g := [fault]) rfl]
    rfl

end Sys2Proof.Endings
end
